-- ==== Sys2Proof/Word.lean ====
section
/-! DEFINITION. The widths of this hardware (R5): 8-bit data, 16-bit addresses. Every value is unsigned unless a
definition says otherwise (R7, R21). -/

namespace Sys2Proof

/-- An 8-bit value: a register, a memory byte, an operand byte. -/
abbrev Byte := BitVec 8

/-- A 16-bit value: PC or an address. -/
abbrev Addr := BitVec 16

end Sys2Proof
end

