-- ==== Sys2Proof/Config.lean ====
section
/-! DEFINITION. The named parameters of R5 and the constants of the construction rules.
`MemImage` and `ResetRegs` are arguments of `State.construct`; `JmpIndirectPageWrap` is an opaque constant here;
`Bus` is an argument of `Bus.step`, whose default, the plain buffer, is what `step` runs over (R45, log 6). -/

namespace Sys2Proof.Config

/-- `JmpIndirectPageWrap` (R5, R72, D5): whether JMP (ind) reproduces the page-wrap defect. The spec leaves it OPEN,
so the constant has no body: no proof can see its value, and a claim that does not split on it holds for both.
DESIGN CHOICE, log 3: safe. -/
opaque jmpIndirectPageWrap : Bool

/-- The register and flag values at construction that the spec leaves OPEN (R5, R262, D1). -/
structure ResetRegs where
  a : Byte
  x : Byte
  y : Byte
  n : Bool
  v : Bool
  b : Bool
  d : Bool
  i : Bool
  z : Bool
  c : Bool
  deriving DecidableEq, Repr

/-- The values `State.reset` takes for `ResetRegs`: all zero. DESIGN CHOICE, logs 1 and 2: unsafe (the spec says a
reader must not assume them). -/
def resetRegs : ResetRegs :=
  { a := 0, x := 0, y := 0, n := false, v := false, b := false, d := false, i := false, z := false, c := false }

/-- SP at construction (R262). -/
def resetSp : Byte := 0xFF

/-- The address of the reset vector (R51, R263). -/
def resetVector : Addr := 0xFFFC

/-- The first address of the stack page (R23, R51). -/
def stackPage : Addr := 0x0100

end Sys2Proof.Config
end

