-- ==== Sys2Proof/Syntax.lean ====
section
/-! DEFINITION. The instruction set as syntax: the 56 mnemonics, the thirteen addressing modes (R61, R63), the
operand forms, and `Instr` with one constructor per row of spec/opcode_table.json, in the order of the rule files
40_logic.md to 49_control.md. A constructor's one argument is its operand: the byte b1, or for a length-3 row the
16-bit operand of R64. -/

namespace Sys2Proof

/-- The 56 documented mnemonics (R3). -/
inductive Mnemonic where
  | ora | and | eor | bit | asl | lsr | rol | ror
  | adc | sbc | cmp | cpx | cpy | inc | dec | inx
  | iny | dex | dey | clc | sec | cli | sei | cld
  | sed | clv | bpl | bmi | bvc | bvs | bcc | bcs
  | bne | beq | lda | ldx | ldy | sta | stx | sty
  | tax | tay | txa | tya | tsx | txs | pha | pla
  | php | plp | jmp | jsr | rts | brk | rti | nop
  deriving DecidableEq, Repr

/-- The thirteen mode tags (R61). -/
inductive Mode where
  | imp | acc | imm | zp | zpx | zpy | izx | izy | rel | abs | absx | absy | ind
  deriving DecidableEq, Repr

/-- The memory modes of R63, each with its operand: the mode resolves an effective address (R67 to R71, R73, R74). -/
inductive MemOperand where
  | zp (zp : Byte)
  | zpx (zp : Byte)
  | zpy (zp : Byte)
  | abs (addr : Addr)
  | absx (addr : Addr)
  | absy (addr : Addr)
  | izx (zp : Byte)
  | izy (zp : Byte)
  deriving DecidableEq, Repr

/-- An operand of any of the four kinds of R63: a register mode (`imp`, `acc`), the value mode (`imm`), a memory
mode (`mem`), or a control mode (`ind`, `rel`; JMP and JSR use `mem (.abs _)`, whose address is the target). -/
inductive Operand where
  | imp
  | acc
  | imm (v : Byte)
  | mem (m : MemOperand)
  | ind (ptr : Addr)
  | rel (off : Byte)
  deriving DecidableEq, Repr

/-- The documented instructions: one constructor per row of spec/opcode_table.json. -/
inductive Instr where
  /-- `ORA #$nn` = 0x09 IMM (R100, R66). -/
  | oraImm (v : Byte)
  /-- `ORA $nn` = 0x05 ZP (R100, R67). -/
  | oraZp (zp : Byte)
  /-- `ORA $nn,X` = 0x15 ZPX (R100, R68). -/
  | oraZpx (zp : Byte)
  /-- `ORA $nnnn` = 0x0D ABS (R100, R70). -/
  | oraAbs (addr : Addr)
  /-- `ORA $nnnn,X` = 0x1D ABSX (R100, R71). -/
  | oraAbsx (addr : Addr)
  /-- `ORA $nnnn,Y` = 0x19 ABSY (R100, R71). -/
  | oraAbsy (addr : Addr)
  /-- `ORA ($nn,X)` = 0x01 IZX (R100, R73). -/
  | oraIzx (zp : Byte)
  /-- `ORA ($nn),Y` = 0x11 IZY (R100, R74). -/
  | oraIzy (zp : Byte)
  /-- `AND #$nn` = 0x29 IMM (R101, R66). -/
  | andImm (v : Byte)
  /-- `AND $nn` = 0x25 ZP (R101, R67). -/
  | andZp (zp : Byte)
  /-- `AND $nn,X` = 0x35 ZPX (R101, R68). -/
  | andZpx (zp : Byte)
  /-- `AND $nnnn` = 0x2D ABS (R101, R70). -/
  | andAbs (addr : Addr)
  /-- `AND $nnnn,X` = 0x3D ABSX (R101, R71). -/
  | andAbsx (addr : Addr)
  /-- `AND $nnnn,Y` = 0x39 ABSY (R101, R71). -/
  | andAbsy (addr : Addr)
  /-- `AND ($nn,X)` = 0x21 IZX (R101, R73). -/
  | andIzx (zp : Byte)
  /-- `AND ($nn),Y` = 0x31 IZY (R101, R74). -/
  | andIzy (zp : Byte)
  /-- `EOR #$nn` = 0x49 IMM (R102, R66). -/
  | eorImm (v : Byte)
  /-- `EOR $nn` = 0x45 ZP (R102, R67). -/
  | eorZp (zp : Byte)
  /-- `EOR $nn,X` = 0x55 ZPX (R102, R68). -/
  | eorZpx (zp : Byte)
  /-- `EOR $nnnn` = 0x4D ABS (R102, R70). -/
  | eorAbs (addr : Addr)
  /-- `EOR $nnnn,X` = 0x5D ABSX (R102, R71). -/
  | eorAbsx (addr : Addr)
  /-- `EOR $nnnn,Y` = 0x59 ABSY (R102, R71). -/
  | eorAbsy (addr : Addr)
  /-- `EOR ($nn,X)` = 0x41 IZX (R102, R73). -/
  | eorIzx (zp : Byte)
  /-- `EOR ($nn),Y` = 0x51 IZY (R102, R74). -/
  | eorIzy (zp : Byte)
  /-- `BIT $nn` = 0x24 ZP (R103, R67). -/
  | bitZp (zp : Byte)
  /-- `BIT $nnnn` = 0x2C ABS (R103, R70). -/
  | bitAbs (addr : Addr)
  /-- `ASL A` = 0x0A ACC (R111, R76). -/
  | aslAcc
  /-- `ASL $nn` = 0x06 ZP (R111, R67). -/
  | aslZp (zp : Byte)
  /-- `ASL $nn,X` = 0x16 ZPX (R111, R68). -/
  | aslZpx (zp : Byte)
  /-- `ASL $nnnn` = 0x0E ABS (R111, R70). -/
  | aslAbs (addr : Addr)
  /-- `ASL $nnnn,X` = 0x1E ABSX (R111, R71). -/
  | aslAbsx (addr : Addr)
  /-- `LSR A` = 0x4A ACC (R112, R76). -/
  | lsrAcc
  /-- `LSR $nn` = 0x46 ZP (R112, R67). -/
  | lsrZp (zp : Byte)
  /-- `LSR $nn,X` = 0x56 ZPX (R112, R68). -/
  | lsrZpx (zp : Byte)
  /-- `LSR $nnnn` = 0x4E ABS (R112, R70). -/
  | lsrAbs (addr : Addr)
  /-- `LSR $nnnn,X` = 0x5E ABSX (R112, R71). -/
  | lsrAbsx (addr : Addr)
  /-- `ROL A` = 0x2A ACC (R113, R76). -/
  | rolAcc
  /-- `ROL $nn` = 0x26 ZP (R113, R67). -/
  | rolZp (zp : Byte)
  /-- `ROL $nn,X` = 0x36 ZPX (R113, R68). -/
  | rolZpx (zp : Byte)
  /-- `ROL $nnnn` = 0x2E ABS (R113, R70). -/
  | rolAbs (addr : Addr)
  /-- `ROL $nnnn,X` = 0x3E ABSX (R113, R71). -/
  | rolAbsx (addr : Addr)
  /-- `ROR A` = 0x6A ACC (R114, R76). -/
  | rorAcc
  /-- `ROR $nn` = 0x66 ZP (R114, R67). -/
  | rorZp (zp : Byte)
  /-- `ROR $nn,X` = 0x76 ZPX (R114, R68). -/
  | rorZpx (zp : Byte)
  /-- `ROR $nnnn` = 0x6E ABS (R114, R70). -/
  | rorAbs (addr : Addr)
  /-- `ROR $nnnn,X` = 0x7E ABSX (R114, R71). -/
  | rorAbsx (addr : Addr)
  /-- `ADC #$nn` = 0x69 IMM (R121, R66). -/
  | adcImm (v : Byte)
  /-- `ADC $nn` = 0x65 ZP (R121, R67). -/
  | adcZp (zp : Byte)
  /-- `ADC $nn,X` = 0x75 ZPX (R121, R68). -/
  | adcZpx (zp : Byte)
  /-- `ADC $nnnn` = 0x6D ABS (R121, R70). -/
  | adcAbs (addr : Addr)
  /-- `ADC $nnnn,X` = 0x7D ABSX (R121, R71). -/
  | adcAbsx (addr : Addr)
  /-- `ADC $nnnn,Y` = 0x79 ABSY (R121, R71). -/
  | adcAbsy (addr : Addr)
  /-- `ADC ($nn,X)` = 0x61 IZX (R121, R73). -/
  | adcIzx (zp : Byte)
  /-- `ADC ($nn),Y` = 0x71 IZY (R121, R74). -/
  | adcIzy (zp : Byte)
  /-- `SBC #$nn` = 0xE9 IMM (R122, R66). -/
  | sbcImm (v : Byte)
  /-- `SBC $nn` = 0xE5 ZP (R122, R67). -/
  | sbcZp (zp : Byte)
  /-- `SBC $nn,X` = 0xF5 ZPX (R122, R68). -/
  | sbcZpx (zp : Byte)
  /-- `SBC $nnnn` = 0xED ABS (R122, R70). -/
  | sbcAbs (addr : Addr)
  /-- `SBC $nnnn,X` = 0xFD ABSX (R122, R71). -/
  | sbcAbsx (addr : Addr)
  /-- `SBC $nnnn,Y` = 0xF9 ABSY (R122, R71). -/
  | sbcAbsy (addr : Addr)
  /-- `SBC ($nn,X)` = 0xE1 IZX (R122, R73). -/
  | sbcIzx (zp : Byte)
  /-- `SBC ($nn),Y` = 0xF1 IZY (R122, R74). -/
  | sbcIzy (zp : Byte)
  /-- `CMP #$nn` = 0xC9 IMM (R131, R66). -/
  | cmpImm (v : Byte)
  /-- `CMP $nn` = 0xC5 ZP (R131, R67). -/
  | cmpZp (zp : Byte)
  /-- `CMP $nn,X` = 0xD5 ZPX (R131, R68). -/
  | cmpZpx (zp : Byte)
  /-- `CMP $nnnn` = 0xCD ABS (R131, R70). -/
  | cmpAbs (addr : Addr)
  /-- `CMP $nnnn,X` = 0xDD ABSX (R131, R71). -/
  | cmpAbsx (addr : Addr)
  /-- `CMP $nnnn,Y` = 0xD9 ABSY (R131, R71). -/
  | cmpAbsy (addr : Addr)
  /-- `CMP ($nn,X)` = 0xC1 IZX (R131, R73). -/
  | cmpIzx (zp : Byte)
  /-- `CMP ($nn),Y` = 0xD1 IZY (R131, R74). -/
  | cmpIzy (zp : Byte)
  /-- `CPX #$nn` = 0xE0 IMM (R132, R66). -/
  | cpxImm (v : Byte)
  /-- `CPX $nn` = 0xE4 ZP (R132, R67). -/
  | cpxZp (zp : Byte)
  /-- `CPX $nnnn` = 0xEC ABS (R132, R70). -/
  | cpxAbs (addr : Addr)
  /-- `CPY #$nn` = 0xC0 IMM (R133, R66). -/
  | cpyImm (v : Byte)
  /-- `CPY $nn` = 0xC4 ZP (R133, R67). -/
  | cpyZp (zp : Byte)
  /-- `CPY $nnnn` = 0xCC ABS (R133, R70). -/
  | cpyAbs (addr : Addr)
  /-- `INC $nn` = 0xE6 ZP (R140, R67). -/
  | incZp (zp : Byte)
  /-- `INC $nn,X` = 0xF6 ZPX (R140, R68). -/
  | incZpx (zp : Byte)
  /-- `INC $nnnn` = 0xEE ABS (R140, R70). -/
  | incAbs (addr : Addr)
  /-- `INC $nnnn,X` = 0xFE ABSX (R140, R71). -/
  | incAbsx (addr : Addr)
  /-- `DEC $nn` = 0xC6 ZP (R141, R67). -/
  | decZp (zp : Byte)
  /-- `DEC $nn,X` = 0xD6 ZPX (R141, R68). -/
  | decZpx (zp : Byte)
  /-- `DEC $nnnn` = 0xCE ABS (R141, R70). -/
  | decAbs (addr : Addr)
  /-- `DEC $nnnn,X` = 0xDE ABSX (R141, R71). -/
  | decAbsx (addr : Addr)
  /-- `INX` = 0xE8 IMP (R142, R77). -/
  | inx
  /-- `INY` = 0xC8 IMP (R143, R77). -/
  | iny
  /-- `DEX` = 0xCA IMP (R144, R77). -/
  | dex
  /-- `DEY` = 0x88 IMP (R145, R77). -/
  | dey
  /-- `CLC` = 0x18 IMP (R150, R77). -/
  | clc
  /-- `SEC` = 0x38 IMP (R151, R77). -/
  | sec
  /-- `CLI` = 0x58 IMP (R152, R77). -/
  | cli
  /-- `SEI` = 0x78 IMP (R153, R77). -/
  | sei
  /-- `CLD` = 0xD8 IMP (R154, R77). -/
  | cld
  /-- `SED` = 0xF8 IMP (R155, R77). -/
  | sed
  /-- `CLV` = 0xB8 IMP (R156, R77). -/
  | clv
  /-- `BPL $nnnn` = 0x10 REL (R161, R75). -/
  | bpl (off : Byte)
  /-- `BMI $nnnn` = 0x30 REL (R162, R75). -/
  | bmi (off : Byte)
  /-- `BVC $nnnn` = 0x50 REL (R163, R75). -/
  | bvc (off : Byte)
  /-- `BVS $nnnn` = 0x70 REL (R164, R75). -/
  | bvs (off : Byte)
  /-- `BCC $nnnn` = 0x90 REL (R165, R75). -/
  | bcc (off : Byte)
  /-- `BCS $nnnn` = 0xB0 REL (R166, R75). -/
  | bcs (off : Byte)
  /-- `BNE $nnnn` = 0xD0 REL (R167, R75). -/
  | bne (off : Byte)
  /-- `BEQ $nnnn` = 0xF0 REL (R168, R75). -/
  | beq (off : Byte)
  /-- `LDA #$nn` = 0xA9 IMM (R180, R66). -/
  | ldaImm (v : Byte)
  /-- `LDA $nn` = 0xA5 ZP (R180, R67). -/
  | ldaZp (zp : Byte)
  /-- `LDA $nn,X` = 0xB5 ZPX (R180, R68). -/
  | ldaZpx (zp : Byte)
  /-- `LDA $nnnn` = 0xAD ABS (R180, R70). -/
  | ldaAbs (addr : Addr)
  /-- `LDA $nnnn,X` = 0xBD ABSX (R180, R71). -/
  | ldaAbsx (addr : Addr)
  /-- `LDA $nnnn,Y` = 0xB9 ABSY (R180, R71). -/
  | ldaAbsy (addr : Addr)
  /-- `LDA ($nn,X)` = 0xA1 IZX (R180, R73). -/
  | ldaIzx (zp : Byte)
  /-- `LDA ($nn),Y` = 0xB1 IZY (R180, R74). -/
  | ldaIzy (zp : Byte)
  /-- `LDX #$nn` = 0xA2 IMM (R181, R66). -/
  | ldxImm (v : Byte)
  /-- `LDX $nn` = 0xA6 ZP (R181, R67). -/
  | ldxZp (zp : Byte)
  /-- `LDX $nn,Y` = 0xB6 ZPY (R181, R69). -/
  | ldxZpy (zp : Byte)
  /-- `LDX $nnnn` = 0xAE ABS (R181, R70). -/
  | ldxAbs (addr : Addr)
  /-- `LDX $nnnn,Y` = 0xBE ABSY (R181, R71). -/
  | ldxAbsy (addr : Addr)
  /-- `LDY #$nn` = 0xA0 IMM (R182, R66). -/
  | ldyImm (v : Byte)
  /-- `LDY $nn` = 0xA4 ZP (R182, R67). -/
  | ldyZp (zp : Byte)
  /-- `LDY $nn,X` = 0xB4 ZPX (R182, R68). -/
  | ldyZpx (zp : Byte)
  /-- `LDY $nnnn` = 0xAC ABS (R182, R70). -/
  | ldyAbs (addr : Addr)
  /-- `LDY $nnnn,X` = 0xBC ABSX (R182, R71). -/
  | ldyAbsx (addr : Addr)
  /-- `STA $nn` = 0x85 ZP (R183, R67). -/
  | staZp (zp : Byte)
  /-- `STA $nn,X` = 0x95 ZPX (R183, R68). -/
  | staZpx (zp : Byte)
  /-- `STA $nnnn` = 0x8D ABS (R183, R70). -/
  | staAbs (addr : Addr)
  /-- `STA $nnnn,X` = 0x9D ABSX (R183, R71). -/
  | staAbsx (addr : Addr)
  /-- `STA $nnnn,Y` = 0x99 ABSY (R183, R71). -/
  | staAbsy (addr : Addr)
  /-- `STA ($nn,X)` = 0x81 IZX (R183, R73). -/
  | staIzx (zp : Byte)
  /-- `STA ($nn),Y` = 0x91 IZY (R183, R74). -/
  | staIzy (zp : Byte)
  /-- `STX $nn` = 0x86 ZP (R184, R67). -/
  | stxZp (zp : Byte)
  /-- `STX $nn,Y` = 0x96 ZPY (R184, R69). -/
  | stxZpy (zp : Byte)
  /-- `STX $nnnn` = 0x8E ABS (R184, R70). -/
  | stxAbs (addr : Addr)
  /-- `STY $nn` = 0x84 ZP (R185, R67). -/
  | styZp (zp : Byte)
  /-- `STY $nn,X` = 0x94 ZPX (R185, R68). -/
  | styZpx (zp : Byte)
  /-- `STY $nnnn` = 0x8C ABS (R185, R70). -/
  | styAbs (addr : Addr)
  /-- `TAX` = 0xAA IMP (R186, R77). -/
  | tax
  /-- `TAY` = 0xA8 IMP (R187, R77). -/
  | tay
  /-- `TXA` = 0x8A IMP (R188, R77). -/
  | txa
  /-- `TYA` = 0x98 IMP (R189, R77). -/
  | tya
  /-- `TSX` = 0xBA IMP (R190, R77). -/
  | tsx
  /-- `TXS` = 0x9A IMP (R191, R77). -/
  | txs
  /-- `PHA` = 0x48 IMP (R200, R77). -/
  | pha
  /-- `PLA` = 0x68 IMP (R201, R77). -/
  | pla
  /-- `PHP` = 0x08 IMP (R202, R77). -/
  | php
  /-- `PLP` = 0x28 IMP (R203, R77). -/
  | plp
  /-- `JMP $nnnn` = 0x4C ABS (R210, R70). -/
  | jmpAbs (addr : Addr)
  /-- `JMP ($nnnn)` = 0x6C IND (R210, R72). -/
  | jmpInd (ptr : Addr)
  /-- `JSR $nnnn` = 0x20 ABS (R211, R70). -/
  | jsr (addr : Addr)
  /-- `RTS` = 0x60 IMP (R212, R77). -/
  | rts
  /-- `BRK` = 0x00 IMP (R213, R77). -/
  | brk
  /-- `RTI` = 0x40 IMP (R214, R77). -/
  | rti
  /-- `NOP` = 0xEA IMP (R215, R77). -/
  | nop
  deriving DecidableEq, Repr

/-- The mode tag of a memory operand. -/
def MemOperand.mode : MemOperand → Mode
  | .zp _ => .zp
  | .zpx _ => .zpx
  | .zpy _ => .zpy
  | .abs _ => .abs
  | .absx _ => .absx
  | .absy _ => .absy
  | .izx _ => .izx
  | .izy _ => .izy

/-- The mode tag of an operand (R61). -/
def Operand.mode : Operand → Mode
  | .imp => .imp
  | .acc => .acc
  | .imm _ => .imm
  | .mem m => m.mode
  | .ind _ => .ind
  | .rel _ => .rel

/-- The mnemonic of a row. -/
def Instr.mnemonic : Instr → Mnemonic
  | .oraImm _ => .ora
  | .oraZp _ => .ora
  | .oraZpx _ => .ora
  | .oraAbs _ => .ora
  | .oraAbsx _ => .ora
  | .oraAbsy _ => .ora
  | .oraIzx _ => .ora
  | .oraIzy _ => .ora
  | .andImm _ => .and
  | .andZp _ => .and
  | .andZpx _ => .and
  | .andAbs _ => .and
  | .andAbsx _ => .and
  | .andAbsy _ => .and
  | .andIzx _ => .and
  | .andIzy _ => .and
  | .eorImm _ => .eor
  | .eorZp _ => .eor
  | .eorZpx _ => .eor
  | .eorAbs _ => .eor
  | .eorAbsx _ => .eor
  | .eorAbsy _ => .eor
  | .eorIzx _ => .eor
  | .eorIzy _ => .eor
  | .bitZp _ => .bit
  | .bitAbs _ => .bit
  | .aslAcc => .asl
  | .aslZp _ => .asl
  | .aslZpx _ => .asl
  | .aslAbs _ => .asl
  | .aslAbsx _ => .asl
  | .lsrAcc => .lsr
  | .lsrZp _ => .lsr
  | .lsrZpx _ => .lsr
  | .lsrAbs _ => .lsr
  | .lsrAbsx _ => .lsr
  | .rolAcc => .rol
  | .rolZp _ => .rol
  | .rolZpx _ => .rol
  | .rolAbs _ => .rol
  | .rolAbsx _ => .rol
  | .rorAcc => .ror
  | .rorZp _ => .ror
  | .rorZpx _ => .ror
  | .rorAbs _ => .ror
  | .rorAbsx _ => .ror
  | .adcImm _ => .adc
  | .adcZp _ => .adc
  | .adcZpx _ => .adc
  | .adcAbs _ => .adc
  | .adcAbsx _ => .adc
  | .adcAbsy _ => .adc
  | .adcIzx _ => .adc
  | .adcIzy _ => .adc
  | .sbcImm _ => .sbc
  | .sbcZp _ => .sbc
  | .sbcZpx _ => .sbc
  | .sbcAbs _ => .sbc
  | .sbcAbsx _ => .sbc
  | .sbcAbsy _ => .sbc
  | .sbcIzx _ => .sbc
  | .sbcIzy _ => .sbc
  | .cmpImm _ => .cmp
  | .cmpZp _ => .cmp
  | .cmpZpx _ => .cmp
  | .cmpAbs _ => .cmp
  | .cmpAbsx _ => .cmp
  | .cmpAbsy _ => .cmp
  | .cmpIzx _ => .cmp
  | .cmpIzy _ => .cmp
  | .cpxImm _ => .cpx
  | .cpxZp _ => .cpx
  | .cpxAbs _ => .cpx
  | .cpyImm _ => .cpy
  | .cpyZp _ => .cpy
  | .cpyAbs _ => .cpy
  | .incZp _ => .inc
  | .incZpx _ => .inc
  | .incAbs _ => .inc
  | .incAbsx _ => .inc
  | .decZp _ => .dec
  | .decZpx _ => .dec
  | .decAbs _ => .dec
  | .decAbsx _ => .dec
  | .inx => .inx
  | .iny => .iny
  | .dex => .dex
  | .dey => .dey
  | .clc => .clc
  | .sec => .sec
  | .cli => .cli
  | .sei => .sei
  | .cld => .cld
  | .sed => .sed
  | .clv => .clv
  | .bpl _ => .bpl
  | .bmi _ => .bmi
  | .bvc _ => .bvc
  | .bvs _ => .bvs
  | .bcc _ => .bcc
  | .bcs _ => .bcs
  | .bne _ => .bne
  | .beq _ => .beq
  | .ldaImm _ => .lda
  | .ldaZp _ => .lda
  | .ldaZpx _ => .lda
  | .ldaAbs _ => .lda
  | .ldaAbsx _ => .lda
  | .ldaAbsy _ => .lda
  | .ldaIzx _ => .lda
  | .ldaIzy _ => .lda
  | .ldxImm _ => .ldx
  | .ldxZp _ => .ldx
  | .ldxZpy _ => .ldx
  | .ldxAbs _ => .ldx
  | .ldxAbsy _ => .ldx
  | .ldyImm _ => .ldy
  | .ldyZp _ => .ldy
  | .ldyZpx _ => .ldy
  | .ldyAbs _ => .ldy
  | .ldyAbsx _ => .ldy
  | .staZp _ => .sta
  | .staZpx _ => .sta
  | .staAbs _ => .sta
  | .staAbsx _ => .sta
  | .staAbsy _ => .sta
  | .staIzx _ => .sta
  | .staIzy _ => .sta
  | .stxZp _ => .stx
  | .stxZpy _ => .stx
  | .stxAbs _ => .stx
  | .styZp _ => .sty
  | .styZpx _ => .sty
  | .styAbs _ => .sty
  | .tax => .tax
  | .tay => .tay
  | .txa => .txa
  | .tya => .tya
  | .tsx => .tsx
  | .txs => .txs
  | .pha => .pha
  | .pla => .pla
  | .php => .php
  | .plp => .plp
  | .jmpAbs _ => .jmp
  | .jmpInd _ => .jmp
  | .jsr _ => .jsr
  | .rts => .rts
  | .brk => .brk
  | .rti => .rti
  | .nop => .nop

/-- The operand of a row. -/
def Instr.operand : Instr → Operand
  | .oraImm v => .imm v
  | .oraZp zp => .mem (.zp zp)
  | .oraZpx zp => .mem (.zpx zp)
  | .oraAbs addr => .mem (.abs addr)
  | .oraAbsx addr => .mem (.absx addr)
  | .oraAbsy addr => .mem (.absy addr)
  | .oraIzx zp => .mem (.izx zp)
  | .oraIzy zp => .mem (.izy zp)
  | .andImm v => .imm v
  | .andZp zp => .mem (.zp zp)
  | .andZpx zp => .mem (.zpx zp)
  | .andAbs addr => .mem (.abs addr)
  | .andAbsx addr => .mem (.absx addr)
  | .andAbsy addr => .mem (.absy addr)
  | .andIzx zp => .mem (.izx zp)
  | .andIzy zp => .mem (.izy zp)
  | .eorImm v => .imm v
  | .eorZp zp => .mem (.zp zp)
  | .eorZpx zp => .mem (.zpx zp)
  | .eorAbs addr => .mem (.abs addr)
  | .eorAbsx addr => .mem (.absx addr)
  | .eorAbsy addr => .mem (.absy addr)
  | .eorIzx zp => .mem (.izx zp)
  | .eorIzy zp => .mem (.izy zp)
  | .bitZp zp => .mem (.zp zp)
  | .bitAbs addr => .mem (.abs addr)
  | .aslAcc => .acc
  | .aslZp zp => .mem (.zp zp)
  | .aslZpx zp => .mem (.zpx zp)
  | .aslAbs addr => .mem (.abs addr)
  | .aslAbsx addr => .mem (.absx addr)
  | .lsrAcc => .acc
  | .lsrZp zp => .mem (.zp zp)
  | .lsrZpx zp => .mem (.zpx zp)
  | .lsrAbs addr => .mem (.abs addr)
  | .lsrAbsx addr => .mem (.absx addr)
  | .rolAcc => .acc
  | .rolZp zp => .mem (.zp zp)
  | .rolZpx zp => .mem (.zpx zp)
  | .rolAbs addr => .mem (.abs addr)
  | .rolAbsx addr => .mem (.absx addr)
  | .rorAcc => .acc
  | .rorZp zp => .mem (.zp zp)
  | .rorZpx zp => .mem (.zpx zp)
  | .rorAbs addr => .mem (.abs addr)
  | .rorAbsx addr => .mem (.absx addr)
  | .adcImm v => .imm v
  | .adcZp zp => .mem (.zp zp)
  | .adcZpx zp => .mem (.zpx zp)
  | .adcAbs addr => .mem (.abs addr)
  | .adcAbsx addr => .mem (.absx addr)
  | .adcAbsy addr => .mem (.absy addr)
  | .adcIzx zp => .mem (.izx zp)
  | .adcIzy zp => .mem (.izy zp)
  | .sbcImm v => .imm v
  | .sbcZp zp => .mem (.zp zp)
  | .sbcZpx zp => .mem (.zpx zp)
  | .sbcAbs addr => .mem (.abs addr)
  | .sbcAbsx addr => .mem (.absx addr)
  | .sbcAbsy addr => .mem (.absy addr)
  | .sbcIzx zp => .mem (.izx zp)
  | .sbcIzy zp => .mem (.izy zp)
  | .cmpImm v => .imm v
  | .cmpZp zp => .mem (.zp zp)
  | .cmpZpx zp => .mem (.zpx zp)
  | .cmpAbs addr => .mem (.abs addr)
  | .cmpAbsx addr => .mem (.absx addr)
  | .cmpAbsy addr => .mem (.absy addr)
  | .cmpIzx zp => .mem (.izx zp)
  | .cmpIzy zp => .mem (.izy zp)
  | .cpxImm v => .imm v
  | .cpxZp zp => .mem (.zp zp)
  | .cpxAbs addr => .mem (.abs addr)
  | .cpyImm v => .imm v
  | .cpyZp zp => .mem (.zp zp)
  | .cpyAbs addr => .mem (.abs addr)
  | .incZp zp => .mem (.zp zp)
  | .incZpx zp => .mem (.zpx zp)
  | .incAbs addr => .mem (.abs addr)
  | .incAbsx addr => .mem (.absx addr)
  | .decZp zp => .mem (.zp zp)
  | .decZpx zp => .mem (.zpx zp)
  | .decAbs addr => .mem (.abs addr)
  | .decAbsx addr => .mem (.absx addr)
  | .inx => .imp
  | .iny => .imp
  | .dex => .imp
  | .dey => .imp
  | .clc => .imp
  | .sec => .imp
  | .cli => .imp
  | .sei => .imp
  | .cld => .imp
  | .sed => .imp
  | .clv => .imp
  | .bpl off => .rel off
  | .bmi off => .rel off
  | .bvc off => .rel off
  | .bvs off => .rel off
  | .bcc off => .rel off
  | .bcs off => .rel off
  | .bne off => .rel off
  | .beq off => .rel off
  | .ldaImm v => .imm v
  | .ldaZp zp => .mem (.zp zp)
  | .ldaZpx zp => .mem (.zpx zp)
  | .ldaAbs addr => .mem (.abs addr)
  | .ldaAbsx addr => .mem (.absx addr)
  | .ldaAbsy addr => .mem (.absy addr)
  | .ldaIzx zp => .mem (.izx zp)
  | .ldaIzy zp => .mem (.izy zp)
  | .ldxImm v => .imm v
  | .ldxZp zp => .mem (.zp zp)
  | .ldxZpy zp => .mem (.zpy zp)
  | .ldxAbs addr => .mem (.abs addr)
  | .ldxAbsy addr => .mem (.absy addr)
  | .ldyImm v => .imm v
  | .ldyZp zp => .mem (.zp zp)
  | .ldyZpx zp => .mem (.zpx zp)
  | .ldyAbs addr => .mem (.abs addr)
  | .ldyAbsx addr => .mem (.absx addr)
  | .staZp zp => .mem (.zp zp)
  | .staZpx zp => .mem (.zpx zp)
  | .staAbs addr => .mem (.abs addr)
  | .staAbsx addr => .mem (.absx addr)
  | .staAbsy addr => .mem (.absy addr)
  | .staIzx zp => .mem (.izx zp)
  | .staIzy zp => .mem (.izy zp)
  | .stxZp zp => .mem (.zp zp)
  | .stxZpy zp => .mem (.zpy zp)
  | .stxAbs addr => .mem (.abs addr)
  | .styZp zp => .mem (.zp zp)
  | .styZpx zp => .mem (.zpx zp)
  | .styAbs addr => .mem (.abs addr)
  | .tax => .imp
  | .tay => .imp
  | .txa => .imp
  | .tya => .imp
  | .tsx => .imp
  | .txs => .imp
  | .pha => .imp
  | .pla => .imp
  | .php => .imp
  | .plp => .imp
  | .jmpAbs addr => .mem (.abs addr)
  | .jmpInd ptr => .ind ptr
  | .jsr addr => .mem (.abs addr)
  | .rts => .imp
  | .brk => .imp
  | .rti => .imp
  | .nop => .imp

/-- The addressing mode of a row. -/
def Instr.mode (i : Instr) : Mode := i.operand.mode

end Sys2Proof
end

