-- ==== Sys2Proof/WellFormed.lean ====
section
/-! DEFINITION. Well-formed instructions. Every operand byte and word is legal (R85), so the one check is that the
instruction's mode is one its mnemonic has: 30_encoding.md section 7, opcodes by mnemonic. -/

namespace Sys2Proof

/-- The modes each mnemonic has (30_encoding.md section 7). -/
def Mnemonic.modes : Mnemonic → List Mode
  | .ora => [.izx, .zp, .imm, .abs, .izy, .zpx, .absy, .absx]
  | .and => [.izx, .zp, .imm, .abs, .izy, .zpx, .absy, .absx]
  | .eor => [.izx, .zp, .imm, .abs, .izy, .zpx, .absy, .absx]
  | .bit => [.zp, .abs]
  | .asl => [.zp, .acc, .abs, .zpx, .absx]
  | .lsr => [.zp, .acc, .abs, .zpx, .absx]
  | .rol => [.zp, .acc, .abs, .zpx, .absx]
  | .ror => [.zp, .acc, .abs, .zpx, .absx]
  | .adc => [.izx, .zp, .imm, .abs, .izy, .zpx, .absy, .absx]
  | .sbc => [.izx, .zp, .imm, .abs, .izy, .zpx, .absy, .absx]
  | .cmp => [.izx, .zp, .imm, .abs, .izy, .zpx, .absy, .absx]
  | .cpx => [.imm, .zp, .abs]
  | .cpy => [.imm, .zp, .abs]
  | .inc => [.zp, .abs, .zpx, .absx]
  | .dec => [.zp, .abs, .zpx, .absx]
  | .inx => [.imp]
  | .iny => [.imp]
  | .dex => [.imp]
  | .dey => [.imp]
  | .clc => [.imp]
  | .sec => [.imp]
  | .cli => [.imp]
  | .sei => [.imp]
  | .cld => [.imp]
  | .sed => [.imp]
  | .clv => [.imp]
  | .bpl => [.rel]
  | .bmi => [.rel]
  | .bvc => [.rel]
  | .bvs => [.rel]
  | .bcc => [.rel]
  | .bcs => [.rel]
  | .bne => [.rel]
  | .beq => [.rel]
  | .lda => [.izx, .zp, .imm, .abs, .izy, .zpx, .absy, .absx]
  | .ldx => [.imm, .zp, .abs, .zpy, .absy]
  | .ldy => [.imm, .zp, .abs, .zpx, .absx]
  | .sta => [.izx, .zp, .abs, .izy, .zpx, .absy, .absx]
  | .stx => [.zp, .abs, .zpy]
  | .sty => [.zp, .abs, .zpx]
  | .tax => [.imp]
  | .tay => [.imp]
  | .txa => [.imp]
  | .tya => [.imp]
  | .tsx => [.imp]
  | .txs => [.imp]
  | .pha => [.imp]
  | .pla => [.imp]
  | .php => [.imp]
  | .plp => [.imp]
  | .jmp => [.abs, .ind]
  | .jsr => [.abs]
  | .rts => [.imp]
  | .brk => [.imp]
  | .rti => [.imp]
  | .nop => [.imp]

/-- The pair (mnemonic, mode) is a row of the opcode table. -/
def formExists (mn : Mnemonic) (md : Mode) : Bool := mn.modes.contains md

/-- The instruction's mode is one its mnemonic has. -/
def Instr.wf (i : Instr) : Bool := formExists i.mnemonic i.mode

end Sys2Proof
end

