-- ==== Sys2Proof/Decode.lean ====
section
/-! DEFINITION. The decoder and the encoder. The dispatch table is the map of R80, sixteen rows of sixteen cells; the
decoder is total on any list of bytes and rejects by name (R79, R85). The encoder is written from the Encoding lines
of the instruction rules, not from the map, so that the round trip compares two of the spec's own tables. -/

namespace Sys2Proof

/-! ### Byte order (R46, R64) -/

/-- `(hi << 8) | lo` (R7, R64). -/
def joinBytes (lo hi : Byte) : Addr := hi ++ lo

/-- `w[7:0]` (R7). -/
def lowByte (w : Addr) : Byte := w.extractLsb' 0 8

/-- `w[15:8]` (R7). -/
def highByte (w : Addr) : Byte := w.extractLsb' 8 8

/-! ### Lengths (R61) -/

/-- The length of an instruction is a function of its addressing mode alone (R61). -/
def Mode.length : Mode → Nat
  | .imp | .acc => 1
  | .imm | .zp | .zpx | .zpy | .izx | .izy | .rel => 2
  | .abs | .absx | .absy | .ind => 3

/-- The length of an instruction in bytes (R61). -/
def Instr.length (i : Instr) : Nat := i.mode.length

/-! ### The dispatch table (R79, R80, R83) -/

/-- An entry of the dispatch table: the undefined marker, or the instruction with its operand bytes still to come.
The constructor names the operation and the mode (`Instr.mnemonic`, `Instr.mode`), so length and behaviour are held
in one entry (R61, R79). -/
inductive Entry where
  | undefined
  | one (i : Instr)
  | two (mk : Byte → Instr)
  | three (mk : Addr → Instr)

/-- Row 0x of the opcode map (R80). -/
def dispatchRow0 : List Entry :=
  [.one .brk, .two .oraIzx, .undefined, .undefined,
   .undefined, .two .oraZp, .two .aslZp, .undefined,
   .one .php, .two .oraImm, .one .aslAcc, .undefined,
   .undefined, .three .oraAbs, .three .aslAbs, .undefined]

/-- Row 1x of the opcode map (R80). -/
def dispatchRow1 : List Entry :=
  [.two .bpl, .two .oraIzy, .undefined, .undefined,
   .undefined, .two .oraZpx, .two .aslZpx, .undefined,
   .one .clc, .three .oraAbsy, .undefined, .undefined,
   .undefined, .three .oraAbsx, .three .aslAbsx, .undefined]

/-- Row 2x of the opcode map (R80). -/
def dispatchRow2 : List Entry :=
  [.three .jsr, .two .andIzx, .undefined, .undefined,
   .two .bitZp, .two .andZp, .two .rolZp, .undefined,
   .one .plp, .two .andImm, .one .rolAcc, .undefined,
   .three .bitAbs, .three .andAbs, .three .rolAbs, .undefined]

/-- Row 3x of the opcode map (R80). -/
def dispatchRow3 : List Entry :=
  [.two .bmi, .two .andIzy, .undefined, .undefined,
   .undefined, .two .andZpx, .two .rolZpx, .undefined,
   .one .sec, .three .andAbsy, .undefined, .undefined,
   .undefined, .three .andAbsx, .three .rolAbsx, .undefined]

/-- Row 4x of the opcode map (R80). -/
def dispatchRow4 : List Entry :=
  [.one .rti, .two .eorIzx, .undefined, .undefined,
   .undefined, .two .eorZp, .two .lsrZp, .undefined,
   .one .pha, .two .eorImm, .one .lsrAcc, .undefined,
   .three .jmpAbs, .three .eorAbs, .three .lsrAbs, .undefined]

/-- Row 5x of the opcode map (R80). -/
def dispatchRow5 : List Entry :=
  [.two .bvc, .two .eorIzy, .undefined, .undefined,
   .undefined, .two .eorZpx, .two .lsrZpx, .undefined,
   .one .cli, .three .eorAbsy, .undefined, .undefined,
   .undefined, .three .eorAbsx, .three .lsrAbsx, .undefined]

/-- Row 6x of the opcode map (R80). -/
def dispatchRow6 : List Entry :=
  [.one .rts, .two .adcIzx, .undefined, .undefined,
   .undefined, .two .adcZp, .two .rorZp, .undefined,
   .one .pla, .two .adcImm, .one .rorAcc, .undefined,
   .three .jmpInd, .three .adcAbs, .three .rorAbs, .undefined]

/-- Row 7x of the opcode map (R80). -/
def dispatchRow7 : List Entry :=
  [.two .bvs, .two .adcIzy, .undefined, .undefined,
   .undefined, .two .adcZpx, .two .rorZpx, .undefined,
   .one .sei, .three .adcAbsy, .undefined, .undefined,
   .undefined, .three .adcAbsx, .three .rorAbsx, .undefined]

/-- Row 8x of the opcode map (R80). -/
def dispatchRow8 : List Entry :=
  [.undefined, .two .staIzx, .undefined, .undefined,
   .two .styZp, .two .staZp, .two .stxZp, .undefined,
   .one .dey, .undefined, .one .txa, .undefined,
   .three .styAbs, .three .staAbs, .three .stxAbs, .undefined]

/-- Row 9x of the opcode map (R80). -/
def dispatchRow9 : List Entry :=
  [.two .bcc, .two .staIzy, .undefined, .undefined,
   .two .styZpx, .two .staZpx, .two .stxZpy, .undefined,
   .one .tya, .three .staAbsy, .one .txs, .undefined,
   .undefined, .three .staAbsx, .undefined, .undefined]

/-- Row Ax of the opcode map (R80). -/
def dispatchRowA : List Entry :=
  [.two .ldyImm, .two .ldaIzx, .two .ldxImm, .undefined,
   .two .ldyZp, .two .ldaZp, .two .ldxZp, .undefined,
   .one .tay, .two .ldaImm, .one .tax, .undefined,
   .three .ldyAbs, .three .ldaAbs, .three .ldxAbs, .undefined]

/-- Row Bx of the opcode map (R80). -/
def dispatchRowB : List Entry :=
  [.two .bcs, .two .ldaIzy, .undefined, .undefined,
   .two .ldyZpx, .two .ldaZpx, .two .ldxZpy, .undefined,
   .one .clv, .three .ldaAbsy, .one .tsx, .undefined,
   .three .ldyAbsx, .three .ldaAbsx, .three .ldxAbsy, .undefined]

/-- Row Cx of the opcode map (R80). -/
def dispatchRowC : List Entry :=
  [.two .cpyImm, .two .cmpIzx, .undefined, .undefined,
   .two .cpyZp, .two .cmpZp, .two .decZp, .undefined,
   .one .iny, .two .cmpImm, .one .dex, .undefined,
   .three .cpyAbs, .three .cmpAbs, .three .decAbs, .undefined]

/-- Row Dx of the opcode map (R80). -/
def dispatchRowD : List Entry :=
  [.two .bne, .two .cmpIzy, .undefined, .undefined,
   .undefined, .two .cmpZpx, .two .decZpx, .undefined,
   .one .cld, .three .cmpAbsy, .undefined, .undefined,
   .undefined, .three .cmpAbsx, .three .decAbsx, .undefined]

/-- Row Ex of the opcode map (R80). -/
def dispatchRowE : List Entry :=
  [.two .cpxImm, .two .sbcIzx, .undefined, .undefined,
   .two .cpxZp, .two .sbcZp, .two .incZp, .undefined,
   .one .inx, .two .sbcImm, .one .nop, .undefined,
   .three .cpxAbs, .three .sbcAbs, .three .incAbs, .undefined]

/-- Row Fx of the opcode map (R80). -/
def dispatchRowF : List Entry :=
  [.two .beq, .two .sbcIzy, .undefined, .undefined,
   .undefined, .two .sbcZpx, .two .incZpx, .undefined,
   .one .sed, .three .sbcAbsy, .undefined, .undefined,
   .undefined, .three .sbcAbsx, .three .incAbsx, .undefined]

/-- The sixteen rows of the opcode map (R80). -/
def dispatchTable : List (List Entry) :=
  [dispatchRow0, dispatchRow1, dispatchRow2, dispatchRow3] ++ [dispatchRow4, dispatchRow5, dispatchRow6, dispatchRow7] ++
  [dispatchRow8, dispatchRow9, dispatchRowA, dispatchRowB] ++ [dispatchRowC, dispatchRowD, dispatchRowE, dispatchRowF]

/-- `Table[op]` (R79, R81): row = opcode bits 7..4, column = opcode bits 3..0. -/
def dispatch (op : Byte) : Entry := (dispatchTable.getD (op.toNat / 16) []).getD (op.toNat % 16) .undefined

/-- The number of operand bytes an entry takes (R60, R61). -/
def Entry.operandBytes : Entry → Nat
  | .undefined => 0
  | .one _ => 0
  | .two _ => 1
  | .three _ => 2

/-- The instruction an entry gives with operand bytes b1 and b2; an entry ignores the bytes it does not take
(R62, R64). -/
def Entry.build (b1 b2 : Byte) : Entry → Option Instr
  | .undefined => none
  | .one i => some i
  | .two mk => some (mk b1)
  | .three mk => some (mk (joinBytes b1 b2))

/-! ### The decoder -/

/-- Why a list of bytes is rejected. -/
inductive DecodeError where
  /-- The opcode is one of the 105 undefined values (R83). -/
  | invalidOpcode (op : Byte)
  /-- The list ends before the instruction does; it cannot arise in a step, which reads memory (R62). DESIGN CHOICE,
  log 14: safe. -/
  | truncated
  deriving DecidableEq, Repr

/-- Decode one instruction from the front of a list of bytes; answers it with the bytes after it (R60, R62, R79). -/
def decode : List Byte → Except DecodeError (Instr × List Byte)
  | [] => .error .truncated
  | op :: rest =>
    match dispatch op, rest with
    | .undefined, _ => .error (.invalidOpcode op)
    | .one i, _ => .ok (i, rest)
    | .two mk, b1 :: rest' => .ok (mk b1, rest')
    | .three mk, b1 :: b2 :: rest' => .ok (mk (joinBytes b1 b2), rest')
    | .two _, [] => .error .truncated
    | .three _, [] => .error .truncated
    | .three _, [_] => .error .truncated

/-- The three bytes of a word of spec/opcode_table.json's numbering: bit 0 is the least significant bit of the first
byte, and every bit from `nbits` up is 0. -/
def tableWordBytes (nbits w : Nat) : List Byte :=
  let v := w % 2 ^ nbits
  [BitVec.ofNat 8 v, BitVec.ofNat 8 (v / 256), BitVec.ofNat 8 (v / 65536)]

/-- The instruction the decoder reads from such a word. -/
def decodeTableWord (nbits w : Nat) : Option Instr :=
  match decode (tableWordBytes nbits w) with
  | .ok (i, _) => some i
  | .error _ => none

/-! ### The encoder -/

/-- The opcode byte of each row, from the Encoding line of its rule. -/
def Instr.opcode : Instr → Byte
  | .oraImm _ => 0x09
  | .oraZp _ => 0x05
  | .oraZpx _ => 0x15
  | .oraAbs _ => 0x0D
  | .oraAbsx _ => 0x1D
  | .oraAbsy _ => 0x19
  | .oraIzx _ => 0x01
  | .oraIzy _ => 0x11
  | .andImm _ => 0x29
  | .andZp _ => 0x25
  | .andZpx _ => 0x35
  | .andAbs _ => 0x2D
  | .andAbsx _ => 0x3D
  | .andAbsy _ => 0x39
  | .andIzx _ => 0x21
  | .andIzy _ => 0x31
  | .eorImm _ => 0x49
  | .eorZp _ => 0x45
  | .eorZpx _ => 0x55
  | .eorAbs _ => 0x4D
  | .eorAbsx _ => 0x5D
  | .eorAbsy _ => 0x59
  | .eorIzx _ => 0x41
  | .eorIzy _ => 0x51
  | .bitZp _ => 0x24
  | .bitAbs _ => 0x2C
  | .aslAcc => 0x0A
  | .aslZp _ => 0x06
  | .aslZpx _ => 0x16
  | .aslAbs _ => 0x0E
  | .aslAbsx _ => 0x1E
  | .lsrAcc => 0x4A
  | .lsrZp _ => 0x46
  | .lsrZpx _ => 0x56
  | .lsrAbs _ => 0x4E
  | .lsrAbsx _ => 0x5E
  | .rolAcc => 0x2A
  | .rolZp _ => 0x26
  | .rolZpx _ => 0x36
  | .rolAbs _ => 0x2E
  | .rolAbsx _ => 0x3E
  | .rorAcc => 0x6A
  | .rorZp _ => 0x66
  | .rorZpx _ => 0x76
  | .rorAbs _ => 0x6E
  | .rorAbsx _ => 0x7E
  | .adcImm _ => 0x69
  | .adcZp _ => 0x65
  | .adcZpx _ => 0x75
  | .adcAbs _ => 0x6D
  | .adcAbsx _ => 0x7D
  | .adcAbsy _ => 0x79
  | .adcIzx _ => 0x61
  | .adcIzy _ => 0x71
  | .sbcImm _ => 0xE9
  | .sbcZp _ => 0xE5
  | .sbcZpx _ => 0xF5
  | .sbcAbs _ => 0xED
  | .sbcAbsx _ => 0xFD
  | .sbcAbsy _ => 0xF9
  | .sbcIzx _ => 0xE1
  | .sbcIzy _ => 0xF1
  | .cmpImm _ => 0xC9
  | .cmpZp _ => 0xC5
  | .cmpZpx _ => 0xD5
  | .cmpAbs _ => 0xCD
  | .cmpAbsx _ => 0xDD
  | .cmpAbsy _ => 0xD9
  | .cmpIzx _ => 0xC1
  | .cmpIzy _ => 0xD1
  | .cpxImm _ => 0xE0
  | .cpxZp _ => 0xE4
  | .cpxAbs _ => 0xEC
  | .cpyImm _ => 0xC0
  | .cpyZp _ => 0xC4
  | .cpyAbs _ => 0xCC
  | .incZp _ => 0xE6
  | .incZpx _ => 0xF6
  | .incAbs _ => 0xEE
  | .incAbsx _ => 0xFE
  | .decZp _ => 0xC6
  | .decZpx _ => 0xD6
  | .decAbs _ => 0xCE
  | .decAbsx _ => 0xDE
  | .inx => 0xE8
  | .iny => 0xC8
  | .dex => 0xCA
  | .dey => 0x88
  | .clc => 0x18
  | .sec => 0x38
  | .cli => 0x58
  | .sei => 0x78
  | .cld => 0xD8
  | .sed => 0xF8
  | .clv => 0xB8
  | .bpl _ => 0x10
  | .bmi _ => 0x30
  | .bvc _ => 0x50
  | .bvs _ => 0x70
  | .bcc _ => 0x90
  | .bcs _ => 0xB0
  | .bne _ => 0xD0
  | .beq _ => 0xF0
  | .ldaImm _ => 0xA9
  | .ldaZp _ => 0xA5
  | .ldaZpx _ => 0xB5
  | .ldaAbs _ => 0xAD
  | .ldaAbsx _ => 0xBD
  | .ldaAbsy _ => 0xB9
  | .ldaIzx _ => 0xA1
  | .ldaIzy _ => 0xB1
  | .ldxImm _ => 0xA2
  | .ldxZp _ => 0xA6
  | .ldxZpy _ => 0xB6
  | .ldxAbs _ => 0xAE
  | .ldxAbsy _ => 0xBE
  | .ldyImm _ => 0xA0
  | .ldyZp _ => 0xA4
  | .ldyZpx _ => 0xB4
  | .ldyAbs _ => 0xAC
  | .ldyAbsx _ => 0xBC
  | .staZp _ => 0x85
  | .staZpx _ => 0x95
  | .staAbs _ => 0x8D
  | .staAbsx _ => 0x9D
  | .staAbsy _ => 0x99
  | .staIzx _ => 0x81
  | .staIzy _ => 0x91
  | .stxZp _ => 0x86
  | .stxZpy _ => 0x96
  | .stxAbs _ => 0x8E
  | .styZp _ => 0x84
  | .styZpx _ => 0x94
  | .styAbs _ => 0x8C
  | .tax => 0xAA
  | .tay => 0xA8
  | .txa => 0x8A
  | .tya => 0x98
  | .tsx => 0xBA
  | .txs => 0x9A
  | .pha => 0x48
  | .pla => 0x68
  | .php => 0x08
  | .plp => 0x28
  | .jmpAbs _ => 0x4C
  | .jmpInd _ => 0x6C
  | .jsr _ => 0x20
  | .rts => 0x60
  | .brk => 0x00
  | .rti => 0x40
  | .nop => 0xEA

/-- The operand byte or bytes of a memory operand, low byte first (R60, R64). -/
def MemOperand.bytes : MemOperand → List Byte
  | .zp p | .zpx p | .zpy p | .izx p | .izy p => [p]
  | .abs addr | .absx addr | .absy addr => [lowByte addr, highByte addr]

/-- The operand bytes that follow the opcode (R60). -/
def Operand.bytes : Operand → List Byte
  | .imp | .acc => []
  | .imm v => [v]
  | .mem m => m.bytes
  | .ind ptr => [lowByte ptr, highByte ptr]
  | .rel off => [off]

/-- The bytes of an instruction, at increasing addresses (R60). -/
def encode (i : Instr) : List Byte := i.opcode :: i.operand.bytes

end Sys2Proof
end

