-- ==== Sys2Proof/Machine/Memory.lean ====
section
/-! DEFINITION. Memory: the 65536-byte buffer of R41 as plain data. It is a list of (address, byte) pairs in one
canonical form, addresses strictly rising and no entry equal to what an unlisted address reads as (log 4). -/

namespace Sys2Proof.Machine

/-- The bytes of memory that differ from the blank byte, by rising address. -/
abbrev Memory := List Host.Cell

/-- What an unlisted address reads as: "memory is zero-filled unless a host loads program content into it" (R261). -/
def Memory.blankByte : Byte := 0x00

/-- The canonical form from address `lo` on: rising addresses below 65536, no blank byte. -/
def Memory.wfFrom (lo : Nat) : Memory → Bool
  | [] => true
  | (a, v) :: rest => decide (lo ≤ a) && decide (a < 65536) && v != Memory.blankByte && Memory.wfFrom (a + 1) rest

/-- The canonical form: every memory operation keeps it (Laws/Memory.lean). -/
def Memory.wf (m : Memory) : Bool := Memory.wfFrom 0 m

/-- The byte listed for an address, or the blank byte. -/
def Memory.byteAt : Memory → Nat → Byte
  | [], _ => Memory.blankByte
  | (b, w) :: rest, a => if b = a then w else Memory.byteAt rest a

/-- The memory with nothing listed for an address. -/
def Memory.unlist : Memory → Nat → Memory
  | [], _ => []
  | (b, w) :: rest, a => if b = a then Memory.unlist rest a else (b, w) :: Memory.unlist rest a

/-- The memory with one more entry, at its place by address. -/
def Memory.enlist : Memory → Nat → Byte → Memory
  | [], a, v => [(a, v)]
  | (b, w) :: rest, a, v => if a < b then (a, v) :: (b, w) :: rest else (b, w) :: Memory.enlist rest a v

/-- `MemRead(addr, 1)` (R42): `M[addr]`, for every 16-bit address; it changes nothing. -/
def Memory.read (m : Memory) (addr : Addr) : Byte := Memory.byteAt m addr.toNat

/-- `MemWrite(addr, 1, v)` (R43): `M[addr] <- v` and nothing else. -/
def Memory.write (m : Memory) (addr : Addr) (v : Byte) : Memory :=
  if v = Memory.blankByte then Memory.unlist m addr.toNat else Memory.enlist (Memory.unlist m addr.toNat) addr.toNat v

/-- `MemRead(addr, 2)` (R44): two byte reads, low byte first; at 0xFFFF the high byte is read from 0x0000 (D7). -/
def Memory.readWord (m : Memory) (addr : Addr) : Addr :=
  joinBytes (Memory.read m addr) (Memory.read m (addr + 1))

/-- The memory that holds the listed bytes at consecutive addresses from `a` on. -/
def Memory.ofImageFrom (a : Nat) : List Byte → Memory
  | [] => []
  | v :: rest =>
    if a < 65536 ∧ v ≠ Memory.blankByte then (a, v) :: Memory.ofImageFrom (a + 1) rest
    else Memory.ofImageFrom (a + 1) rest

/-- Memory at construction (R261): `M[a] = MemImage[a]`, the image given as its bytes from address 0 on. Addresses
past the end of a short image hold the blank byte, and bytes past address 65535 name no address (log 5). -/
def Memory.ofImage (image : List Byte) : Memory := Memory.ofImageFrom 0 image

end Sys2Proof.Machine
end

