-- ==== Sys2Proof/Machine/State.lean ====
section
/-! DEFINITION. The complete state of the core (R20, R25, R41): the register file and memory, nothing else (R36).
Then the reasons a step stops, and construction, the core's only reset (R260). -/

namespace Sys2Proof.Machine

/-- The unused status bit U, "fixed at a constant value" (R20, R27): a type with one value, so that no instruction
and no host write can change it. `Flags.uValue` is the bit it reads as. -/
inductive UnusedBit where
  | fixed
  deriving DecidableEq, Repr

/-- The status: eight independent flags (R25), U among them as a constant. -/
structure Flags where
  /-- N, sign (R29). -/
  n : Bool
  /-- V, overflow (R30). -/
  v : Bool
  /-- U, the unused bit (R27). -/
  u : UnusedBit
  /-- B, break: a stored flag (R34, C9). -/
  b : Bool
  /-- D, decimal: inert (R32). -/
  d : Bool
  /-- I, interrupt-disable: masks nothing (R33). -/
  i : Bool
  /-- Z, zero (R29). -/
  z : Bool
  /-- C, carry (R31). -/
  c : Bool
  deriving DecidableEq, Repr

/-- The state of the core (10_state.md). -/
structure State where
  /-- The accumulator A (R20). -/
  a : Byte
  /-- The index register X (R20). -/
  x : Byte
  /-- The index register Y (R20). -/
  y : Byte
  /-- The stack pointer, an offset into page 1 (R20, R23). -/
  sp : Byte
  /-- The program counter (R20, R24): between steps the address of the next opcode. -/
  pc : Addr
  /-- The status flags (R25). -/
  flags : Flags
  /-- The 65536 bytes of memory (R41). -/
  mem : Memory
  deriving DecidableEq, Repr

/-- The error results of a step (R230 to R232). A fault is a value the step returns to the host; the state after it
is the state before it (R235, log 7). -/
inductive Fault where
  /-- The byte at PC has no dispatch-table entry (R230); raised by `step` for the 105 values of R83. The record is
  the byte and the address it was fetched from. Safe: the spec's own error. -/
  | invalidOpcode (opcode : Byte) (pc : Addr)
  /-- BRK or RTI, which this core does not support (R231, R213, R214); raised by their meanings, on every path. The
  record is the opcode and its address. Safe: the spec's own error. -/
  | unimplementedControlFlow (opcode : Byte) (pc : Addr)
  deriving DecidableEq, Repr

/-- Why a meaning could be missing. No arm of `exec` answers with it. -/
inductive Refusal where
  /-- An instruction with no meaning yet, by its mnemonic; nothing raises it in this model. Safe. -/
  | notModelled (mnemonic : String)
  deriving DecidableEq, Repr

/-- What a meaning answers. -/
abbrev Result := Host.Outcome State Fault Refusal

/-- The flags of an open `ResetRegs` (R262), U fixed (R264). -/
def Flags.construct (r : Config.ResetRegs) : Flags :=
  { n := r.n, v := r.v, u := .fixed, b := r.b, d := r.d, i := r.i, z := r.z, c := r.c }

/-- Construction (R260 to R264): memory is the image, SP is 0xFF, PC is read through the reset vector after memory is
filled, and the registers and flags the spec leaves open are `r`. -/
def State.construct (image : List Byte) (r : Config.ResetRegs) : State :=
  { a := r.a, x := r.x, y := r.y, sp := Config.resetSp,
    pc := (Memory.ofImage image).readWord Config.resetVector,
    flags := Flags.construct r, mem := Memory.ofImage image }

/-- The machine after construction from a blank buffer (R260, R261, R263), the open registers and flags at the values
logs 1 and 2 name. -/
def State.reset : State := State.construct [] Config.resetRegs

end Sys2Proof.Machine
end

