-- ==== Sys2Proof/Machine/Flags.lean ====
section
/-! DEFINITION. Every flag computation of the spec, as functions on the flags and on bytes: single flags, SetZN
(R26), the status byte (R28), the compare (R130), the shifted-out bits (R110 to R114), and the carry and overflow of
ADC and SBC (R121, R122). -/

namespace Sys2Proof.Machine

/-- The value of the constant unused bit: 1 (R27, R264, D2). -/
def Flags.uValue (_ : Flags) : Bool := true

/-- `N <- b`. -/
def Flags.setN (f : Flags) (b : Bool) : Flags := { f with n := b }

/-- `V <- b`. -/
def Flags.setV (f : Flags) (b : Bool) : Flags := { f with v := b }

/-- `B <- b`. -/
def Flags.setB (f : Flags) (b : Bool) : Flags := { f with b := b }

/-- `D <- b`. -/
def Flags.setD (f : Flags) (b : Bool) : Flags := { f with d := b }

/-- `I <- b`. -/
def Flags.setI (f : Flags) (b : Bool) : Flags := { f with i := b }

/-- `Z <- b`. -/
def Flags.setZ (f : Flags) (b : Bool) : Flags := { f with z := b }

/-- `C <- b`. -/
def Flags.setC (f : Flags) (b : Bool) : Flags := { f with c := b }

/-- `SetZN(v)` (R26): Z when the value is zero, N its bit 7; no other flag. -/
def Flags.setZN (f : Flags) (v : Byte) : Flags := (f.setZ (v == 0)).setN (v.getLsbD 7)

/-- A one-bit value at a bit position of a byte. -/
def bitAt (k : Nat) (b : Bool) : Byte := if b then (1 : Byte) <<< k else 0

/-- `StatusByte()` (R28): N V U B D I Z C from bit 7 to bit 0, U as the constant 1. -/
def Flags.statusByte (f : Flags) : Byte :=
  bitAt 7 f.n ||| bitAt 6 f.v ||| bitAt 5 f.uValue ||| bitAt 4 f.b ||| bitAt 3 f.d ||| bitAt 2 f.i ||| bitAt 1 f.z
    ||| bitAt 0 f.c

/-- `SetStatusByte(p)` (R28): seven flags from the byte; p[5] is discarded. -/
def Flags.setStatusByte (f : Flags) (p : Byte) : Flags :=
  ((((((f.setN (p.getLsbD 7)).setV (p.getLsbD 6)).setB (p.getLsbD 4)).setD (p.getLsbD 3)).setI (p.getLsbD 2)).setZ
    (p.getLsbD 1)).setC (p.getLsbD 0)

/-- `Compare(reg, m)` (R130): C when reg is at least m, unsigned; Z when equal; N the sign of the difference. -/
def Flags.compare (f : Flags) (reg m : Byte) : Flags :=
  ((f.setC (decide (m.toNat ≤ reg.toNat))).setZ (reg == m)).setN ((reg - m).getLsbD 7)

/-- The flags of BIT (R103): N and V from the operand, Z from the parenthesised AND. -/
def Flags.bitTest (f : Flags) (a m : Byte) : Flags :=
  ((f.setN (m.getLsbD 7)).setV (m.getLsbD 6)).setZ ((a &&& m) == 0)

/-! ### Shifts and rotates (R110 to R114): the value and carry-in give the result and the bit shifted out. -/

/-- ASL (R111); the carry-in is not used. -/
def aslByte (v : Byte) (_cin : Bool) : Byte × Bool := (v <<< 1, v.getLsbD 7)

/-- LSR (R112); the carry-in is not used. -/
def lsrByte (v : Byte) (_cin : Bool) : Byte × Bool := (v >>> 1, v.getLsbD 0)

/-- ROL (R113): the old carry enters at bit 0. -/
def rolByte (v : Byte) (cin : Bool) : Byte × Bool := ((v <<< 1) ||| bitAt 0 cin, v.getLsbD 7)

/-- ROR (R114): the old carry enters at bit 7. -/
def rorByte (v : Byte) (cin : Bool) : Byte × Bool := ((v >>> 1) ||| bitAt 7 cin, v.getLsbD 0)

/-- The flags after a shift or rotate: C the bit shifted out, Z and N from the result. -/
def Flags.shifted (f : Flags) (r : Byte × Bool) : Flags := (f.setC r.2).setZN r.1

/-! ### ADC and SBC (R120 to R123): computed on integers, then narrowed. D is not read. -/

/-- An 8-bit result with its carry and signed overflow. -/
structure Sum where
  r : Byte
  c : Bool
  v : Bool
  deriving DecidableEq, Repr

/-- ADC (R121): t = A + m + C. -/
def adcByte (a m : Byte) (cin : Bool) : Sum :=
  let t : Nat := a.toNat + m.toNat + cin.toNat
  let r : Byte := BitVec.ofNat 8 t
  { r := r, c := decide (255 < t), v := (a.getLsbD 7 == m.getLsbD 7) && (r.getLsbD 7 != a.getLsbD 7) }

/-- SBC (R122): t = A − m − (1 − C), A and m unsigned (C3); the overflow is D12's. -/
def sbcByte (a m : Byte) (cin : Bool) : Sum :=
  let t : Int := (a.toNat : Int) - (m.toNat : Int) - (1 - (cin.toNat : Int))
  let r : Byte := BitVec.ofInt 8 t
  { r := r, c := decide (0 ≤ t), v := (a.getLsbD 7 != m.getLsbD 7) && (r.getLsbD 7 != a.getLsbD 7) }

/-- The flags after ADC or SBC: C, V, and Z and N from the result. -/
def Flags.summed (f : Flags) (s : Sum) : Flags := ((f.setC s.c).setV s.v).setZN s.r

end Sys2Proof.Machine
end

