-- ==== Sys2Proof/Machine/Ops.lean ====
section
/-! DEFINITION. The named operations over registers and memory (R9): one update per register, the byte and word
accessors, the stack, and the two error results, which take the place of exception entry on this core (R235). -/

namespace Sys2Proof.Machine

/-! ### Widths (R8) -/

/-- `zext_16(v)` (R8). -/
def zext16 (v : Byte) : Addr := v.setWidth 16

/-- `sext_16(v)` (R8). -/
def sext16 (v : Byte) : Addr := v.signExtend 16

/-! ### Register writes (R9) -/

/-- `A <- v`. -/
def State.withA (s : State) (v : Byte) : State := { s with a := v }

/-- `X <- v`. -/
def State.withX (s : State) (v : Byte) : State := { s with x := v }

/-- `Y <- v`. -/
def State.withY (s : State) (v : Byte) : State := { s with y := v }

/-- `SP <- v`. -/
def State.withSp (s : State) (v : Byte) : State := { s with sp := v }

/-- `PC <- target`. -/
def State.withPc (s : State) (target : Addr) : State := { s with pc := target }

/-- The flags are replaced. -/
def State.withFlags (s : State) (f : Flags) : State := { s with flags := f }

/-- `A <- v; SetZN(v)`. -/
def State.assignA (s : State) (v : Byte) : State := (s.withA v).withFlags (s.flags.setZN v)

/-- `X <- v; SetZN(v)`. -/
def State.assignX (s : State) (v : Byte) : State := (s.withX v).withFlags (s.flags.setZN v)

/-- `Y <- v; SetZN(v)`. -/
def State.assignY (s : State) (v : Byte) : State := (s.withY v).withFlags (s.flags.setZN v)

/-! ### Memory (R42 to R44) -/

/-- `MemRead(addr, 1)` (R42). -/
def State.read (s : State) (addr : Addr) : Byte := s.mem.read addr

/-- `MemRead(addr, 2)` (R44). -/
def State.readWord (s : State) (addr : Addr) : Addr := s.mem.readWord addr

/-- `MemWrite(addr, 1, v)` (R43). -/
def State.write (s : State) (addr : Addr) (v : Byte) : State := { s with mem := s.mem.write addr v }

/-! ### The stack (R23, R48, R49) -/

/-- The stack byte a stack pointer designates: `0x0100 + SP` (R23). -/
def stackAddr (sp : Byte) : Addr := Config.stackPage + zext16 sp

/-- `Push(v)` (R48): write, then decrement; SP wraps mod 256. -/
def State.push (s : State) (v : Byte) : State := (s.write (stackAddr s.sp) v).withSp (s.sp - 1)

/-- SP after a `Pull()` (R49): it wraps mod 256. -/
def State.pulled (s : State) : State := s.withSp (s.sp + 1)

/-- The byte `Pull()` returns: read after SP is incremented (R49). -/
def State.pullByte (s : State) : Byte := s.read (stackAddr (s.sp + 1))

/-! ### Errors (R230 to R236): nothing is saved, pushed or changed, and there is no return to model beside them. -/

/-- `raise InvalidOpcode({opcode, pc})` (R230): `s` is the state before the step, which is also the state after. -/
def raiseInvalidOpcode (opcode : Byte) (s : State) : Result := .fault (.invalidOpcode opcode s.pc)

/-- `raise UnimplementedControlFlow({opcode, pc})` (R231). -/
def raiseUnimplementedControlFlow (opcode : Byte) (s : State) : Result :=
  .fault (.unimplementedControlFlow opcode s.pc)

end Sys2Proof.Machine
end

