-- ==== Sys2Proof/Machine/Operands.lean ====
section
/-! DEFINITION. Effective addresses and operands, one for each mode (R66 to R78). All are functions of the state in
which the instruction rule runs: index registers are read before the instruction writes any register (R65). -/

namespace Sys2Proof.Machine

/-- The 16-bit value at a zero-page pointer; the second byte is read from the next zero-page address, wrapping within
page zero (R73, R74, C4, D6). -/
def State.zeroPagePointer (s : State) (p : Byte) : Addr :=
  joinBytes (s.read (zext16 p)) (s.read (zext16 (p + 1)))

/-- `EA(mode)` of the memory modes (R67 to R71, R73, R74). -/
def State.ea (s : State) : MemOperand → Addr
  | .zp zp => zext16 zp
  | .zpx zp => zext16 (zp + s.x)
  | .zpy zp => zext16 (zp + s.y)
  | .abs addr => addr
  | .absx addr => addr + zext16 s.x
  | .absy addr => addr + zext16 s.y
  | .izx zp => s.zeroPagePointer (zp + s.x)
  | .izy zp => s.zeroPagePointer zp + zext16 s.y

/-- `Operand(mode)` of a memory mode (R78): the byte at EA. -/
def State.load (s : State) (o : MemOperand) : Byte := s.read (s.ea o)

/-- Where JMP (ind) reads the high byte of its target from, when JmpIndirectPageWrap is `wrap` (R72). The parameter
is consulted only where its two values differ, at a pointer whose low byte is 0xFF (`indirectHighAddr_eq`, log 3). -/
def indirectHighAddr (wrap : Bool) (ptr : Addr) : Addr :=
  if lowByte ptr = 0xFF then (if wrap then ptr &&& 0xFF00 else ptr + 1) else ptr + 1

/-- `EA(IND)` (R72) for a value of the parameter. -/
def State.eaIndirectWith (wrap : Bool) (s : State) (ptr : Addr) : Addr :=
  joinBytes (s.read ptr) (s.read (indirectHighAddr wrap ptr))

/-- `EA(IND)` (R72). -/
def State.eaIndirect (s : State) (ptr : Addr) : Addr := s.eaIndirectWith Config.jmpIndirectPageWrap ptr

/-- `Target(REL)` (R75): PC is already the address of the branch + 2. -/
def State.relTarget (s : State) (off : Byte) : Addr := s.pc + sext16 off

end Sys2Proof.Machine
end

