-- ==== Sys2Proof/Machine/Arith.lean ====
section
/-! DEFINITION. ADC and SBC (42_arithmetic.md, R120 to R123), in binary whatever D is. -/

namespace Sys2Proof.Machine

/-- A <- the result of an addition or subtraction, with its flags (R121, R122). -/
def assignSum (t : Sum) (s : State) : Result := .next ((s.withA t.r).withFlags (s.flags.summed t))

/-- `ADC #$nn` (R121, R66). -/
def execAdcImm (v : Byte) (s : State) : Result := assignSum (adcByte s.a v s.flags.c) s

/-- `ADC $nn` (R121, R67). -/
def execAdcZp (zp : Byte) (s : State) : Result := assignSum (adcByte s.a (s.load (.zp zp)) s.flags.c) s

/-- `ADC $nn,X` (R121, R68). -/
def execAdcZpx (zp : Byte) (s : State) : Result := assignSum (adcByte s.a (s.load (.zpx zp)) s.flags.c) s

/-- `ADC $nnnn` (R121, R70). -/
def execAdcAbs (addr : Addr) (s : State) : Result := assignSum (adcByte s.a (s.load (.abs addr)) s.flags.c) s

/-- `ADC $nnnn,X` (R121, R71). -/
def execAdcAbsx (addr : Addr) (s : State) : Result := assignSum (adcByte s.a (s.load (.absx addr)) s.flags.c) s

/-- `ADC $nnnn,Y` (R121, R71). -/
def execAdcAbsy (addr : Addr) (s : State) : Result := assignSum (adcByte s.a (s.load (.absy addr)) s.flags.c) s

/-- `ADC ($nn,X)` (R121, R73). -/
def execAdcIzx (zp : Byte) (s : State) : Result := assignSum (adcByte s.a (s.load (.izx zp)) s.flags.c) s

/-- `ADC ($nn),Y` (R121, R74). -/
def execAdcIzy (zp : Byte) (s : State) : Result := assignSum (adcByte s.a (s.load (.izy zp)) s.flags.c) s

/-- `SBC #$nn` (R122, R66). -/
def execSbcImm (v : Byte) (s : State) : Result := assignSum (sbcByte s.a v s.flags.c) s

/-- `SBC $nn` (R122, R67). -/
def execSbcZp (zp : Byte) (s : State) : Result := assignSum (sbcByte s.a (s.load (.zp zp)) s.flags.c) s

/-- `SBC $nn,X` (R122, R68). -/
def execSbcZpx (zp : Byte) (s : State) : Result := assignSum (sbcByte s.a (s.load (.zpx zp)) s.flags.c) s

/-- `SBC $nnnn` (R122, R70). -/
def execSbcAbs (addr : Addr) (s : State) : Result := assignSum (sbcByte s.a (s.load (.abs addr)) s.flags.c) s

/-- `SBC $nnnn,X` (R122, R71). -/
def execSbcAbsx (addr : Addr) (s : State) : Result := assignSum (sbcByte s.a (s.load (.absx addr)) s.flags.c) s

/-- `SBC $nnnn,Y` (R122, R71). -/
def execSbcAbsy (addr : Addr) (s : State) : Result := assignSum (sbcByte s.a (s.load (.absy addr)) s.flags.c) s

/-- `SBC ($nn,X)` (R122, R73). -/
def execSbcIzx (zp : Byte) (s : State) : Result := assignSum (sbcByte s.a (s.load (.izx zp)) s.flags.c) s

/-- `SBC ($nn),Y` (R122, R74). -/
def execSbcIzy (zp : Byte) (s : State) : Result := assignSum (sbcByte s.a (s.load (.izy zp)) s.flags.c) s

end Sys2Proof.Machine
end

