-- ==== Sys2Proof/Machine/Branch.lean ====
section
/-! DEFINITION. The eight branches (46_branch.md, R160 to R168). -/

namespace Sys2Proof.Machine

/-- `Branch(cond)` (R160): PC is already past the branch; no flag, register or memory byte changes. -/
def branch (cond : Bool) (off : Byte) (s : State) : Result :=
  .next (s.withPc (if cond then s.relTarget off else s.pc))

/-- `BPL $nnnn` (R161, R75). -/
def execBpl (off : Byte) (s : State) : Result := branch (!s.flags.n) off s

/-- `BMI $nnnn` (R162, R75). -/
def execBmi (off : Byte) (s : State) : Result := branch s.flags.n off s

/-- `BVC $nnnn` (R163, R75). -/
def execBvc (off : Byte) (s : State) : Result := branch (!s.flags.v) off s

/-- `BVS $nnnn` (R164, R75). -/
def execBvs (off : Byte) (s : State) : Result := branch s.flags.v off s

/-- `BCC $nnnn` (R165, R75). -/
def execBcc (off : Byte) (s : State) : Result := branch (!s.flags.c) off s

/-- `BCS $nnnn` (R166, R75). -/
def execBcs (off : Byte) (s : State) : Result := branch s.flags.c off s

/-- `BNE $nnnn` (R167, R75). -/
def execBne (off : Byte) (s : State) : Result := branch (!s.flags.z) off s

/-- `BEQ $nnnn` (R168, R75). -/
def execBeq (off : Byte) (s : State) : Result := branch s.flags.z off s

end Sys2Proof.Machine
end

