-- ==== Sys2Proof/Machine/Compare.lean ====
section
/-! DEFINITION. CMP, CPX and CPY (43_compare.md, R130 to R133). -/

namespace Sys2Proof.Machine

/-- `Compare(reg, m)` (R130): C, Z and N only; the register is never modified. -/
def compareWith (reg m : Byte) (s : State) : Result := .next (s.withFlags (s.flags.compare reg m))

/-- `CMP #$nn` (R131, R66). -/
def execCmpImm (v : Byte) (s : State) : Result := compareWith s.a v s

/-- `CMP $nn` (R131, R67). -/
def execCmpZp (zp : Byte) (s : State) : Result := compareWith s.a (s.load (.zp zp)) s

/-- `CMP $nn,X` (R131, R68). -/
def execCmpZpx (zp : Byte) (s : State) : Result := compareWith s.a (s.load (.zpx zp)) s

/-- `CMP $nnnn` (R131, R70). -/
def execCmpAbs (addr : Addr) (s : State) : Result := compareWith s.a (s.load (.abs addr)) s

/-- `CMP $nnnn,X` (R131, R71). -/
def execCmpAbsx (addr : Addr) (s : State) : Result := compareWith s.a (s.load (.absx addr)) s

/-- `CMP $nnnn,Y` (R131, R71). -/
def execCmpAbsy (addr : Addr) (s : State) : Result := compareWith s.a (s.load (.absy addr)) s

/-- `CMP ($nn,X)` (R131, R73). -/
def execCmpIzx (zp : Byte) (s : State) : Result := compareWith s.a (s.load (.izx zp)) s

/-- `CMP ($nn),Y` (R131, R74). -/
def execCmpIzy (zp : Byte) (s : State) : Result := compareWith s.a (s.load (.izy zp)) s

/-- `CPX #$nn` (R132, R66). -/
def execCpxImm (v : Byte) (s : State) : Result := compareWith s.x v s

/-- `CPX $nn` (R132, R67). -/
def execCpxZp (zp : Byte) (s : State) : Result := compareWith s.x (s.load (.zp zp)) s

/-- `CPX $nnnn` (R132, R70). -/
def execCpxAbs (addr : Addr) (s : State) : Result := compareWith s.x (s.load (.abs addr)) s

/-- `CPY #$nn` (R133, R66). -/
def execCpyImm (v : Byte) (s : State) : Result := compareWith s.y v s

/-- `CPY $nn` (R133, R67). -/
def execCpyZp (zp : Byte) (s : State) : Result := compareWith s.y (s.load (.zp zp)) s

/-- `CPY $nnnn` (R133, R70). -/
def execCpyAbs (addr : Addr) (s : State) : Result := compareWith s.y (s.load (.abs addr)) s

end Sys2Proof.Machine
end

