-- ==== Sys2Proof/Machine/Control.lean ====
section
/-! DEFINITION. JMP, JSR, RTS, BRK, RTI and NOP (49_control.md, R210 to R216). -/

namespace Sys2Proof.Machine

/-- `pc <- target`. -/
def jumpTo (target : Addr) (s : State) : Result := .next (s.withPc target)

/-- `JMP $nnnn` (R210, R70). -/
def execJmpAbs (addr : Addr) (s : State) : Result := jumpTo (s.ea (.abs addr)) s

/-- `JMP ($nnnn)` (R210, R72). -/
def execJmpInd (ptr : Addr) (s : State) : Result := jumpTo (s.eaIndirect ptr) s

/-- `JSR $nnnn` (R211, R70): PC is already the address of JSR + 3; PC − 1 is pushed, high byte first, and the target
bytes were read before the pushes. -/
def execJsr (addr : Addr) (s : State) : Result :=
  .next (((s.push (highByte (s.pc - 1))).push (lowByte (s.pc - 1))).withPc (s.ea (.abs addr)))

/-- `RTS` (R212, R77): low byte, then high byte, are pulled; the popped value + 1 is the resumed PC. -/
def execRts (s : State) : Result :=
  .next (s.pulled.pulled.withPc (joinBytes s.pullByte s.pulled.pullByte + 1))

/-- `BRK` (R213, R231): always the error; `s` is the state before the step, PC at the BRK. -/
def execBrk (s : State) : Result := raiseUnimplementedControlFlow 0x00 s

/-- `RTI` (R214, R231): always the error; `s` is the state before the step, PC at the RTI. -/
def execRti (s : State) : Result := raiseUnimplementedControlFlow 0x40 s

/-- `NOP` (R215): nothing; the step's PC advance is its only effect. -/
def execNop (s : State) : Result := .next s

end Sys2Proof.Machine
end

