-- ==== Sys2Proof/Machine/FlagInstr.lean ====
section
/-! DEFINITION. CLC, SEC, CLI, SEI, CLD, SED and CLV (45_flags.md, R150 to R156). -/

namespace Sys2Proof.Machine

/-- A flag instruction: the flags are replaced, nothing else changes (45_flags.md). -/
def putFlags (f : Flags) (s : State) : Result := .next (s.withFlags f)

/-- `CLC` (R150, R77). -/
def execClc (s : State) : Result := putFlags (s.flags.setC false) s

/-- `SEC` (R151, R77). -/
def execSec (s : State) : Result := putFlags (s.flags.setC true) s

/-- `CLI` (R152, R77). -/
def execCli (s : State) : Result := putFlags (s.flags.setI false) s

/-- `SEI` (R153, R77). -/
def execSei (s : State) : Result := putFlags (s.flags.setI true) s

/-- `CLD` (R154, R77). -/
def execCld (s : State) : Result := putFlags (s.flags.setD false) s

/-- `SED` (R155, R77). -/
def execSed (s : State) : Result := putFlags (s.flags.setD true) s

/-- `CLV` (R156, R77). -/
def execClv (s : State) : Result := putFlags (s.flags.setV false) s

end Sys2Proof.Machine
end

