-- ==== Sys2Proof/Machine/IncDec.lean ====
section
/-! DEFINITION. INC, DEC, INX, INY, DEX and DEY (44_inc_dec.md, R140 to R145): 8-bit wraparound, C and V unaffected. -/

namespace Sys2Proof.Machine

/-- INC and DEC on memory (R140, R141): the byte at EA plus `d` mod 2^8, with SetZN; one read, one write of the same EA. -/
def adjustMem (d : Byte) (o : MemOperand) (s : State) : Result :=
  .next ((s.write (s.ea o) (s.load o + d)).withFlags (s.flags.setZN (s.load o + d)))

/-- `INC $nn` (R140, R67). -/
def execIncZp (zp : Byte) (s : State) : Result := adjustMem 1 (.zp zp) s

/-- `INC $nn,X` (R140, R68). -/
def execIncZpx (zp : Byte) (s : State) : Result := adjustMem 1 (.zpx zp) s

/-- `INC $nnnn` (R140, R70). -/
def execIncAbs (addr : Addr) (s : State) : Result := adjustMem 1 (.abs addr) s

/-- `INC $nnnn,X` (R140, R71). -/
def execIncAbsx (addr : Addr) (s : State) : Result := adjustMem 1 (.absx addr) s

/-- `DEC $nn` (R141, R67). -/
def execDecZp (zp : Byte) (s : State) : Result := adjustMem (-1) (.zp zp) s

/-- `DEC $nn,X` (R141, R68). -/
def execDecZpx (zp : Byte) (s : State) : Result := adjustMem (-1) (.zpx zp) s

/-- `DEC $nnnn` (R141, R70). -/
def execDecAbs (addr : Addr) (s : State) : Result := adjustMem (-1) (.abs addr) s

/-- `DEC $nnnn,X` (R141, R71). -/
def execDecAbsx (addr : Addr) (s : State) : Result := adjustMem (-1) (.absx addr) s

/-- `INX` (R142, R77). -/
def execInx (s : State) : Result := .next (s.assignX (s.x + 1))

/-- `INY` (R143, R77). -/
def execIny (s : State) : Result := .next (s.assignY (s.y + 1))

/-- `DEX` (R144, R77). -/
def execDex (s : State) : Result := .next (s.assignX (s.x - 1))

/-- `DEY` (R145, R77). -/
def execDey (s : State) : Result := .next (s.assignY (s.y - 1))

end Sys2Proof.Machine
end

