-- ==== Sys2Proof/Machine/LoadStore.lean ====
section
/-! DEFINITION. Loads, stores and transfers (47_load_store_transfer.md, R180 to R191). -/

namespace Sys2Proof.Machine

/-- LDA (R180): A <- m; SetZN(m). -/
def loadA (m : Byte) (s : State) : Result := .next (s.assignA m)

/-- `LDA #$nn` (R180, R66). -/
def execLdaImm (v : Byte) (s : State) : Result := loadA v s

/-- `LDA $nn` (R180, R67). -/
def execLdaZp (zp : Byte) (s : State) : Result := loadA (s.load (.zp zp)) s

/-- `LDA $nn,X` (R180, R68). -/
def execLdaZpx (zp : Byte) (s : State) : Result := loadA (s.load (.zpx zp)) s

/-- `LDA $nnnn` (R180, R70). -/
def execLdaAbs (addr : Addr) (s : State) : Result := loadA (s.load (.abs addr)) s

/-- `LDA $nnnn,X` (R180, R71). -/
def execLdaAbsx (addr : Addr) (s : State) : Result := loadA (s.load (.absx addr)) s

/-- `LDA $nnnn,Y` (R180, R71). -/
def execLdaAbsy (addr : Addr) (s : State) : Result := loadA (s.load (.absy addr)) s

/-- `LDA ($nn,X)` (R180, R73). -/
def execLdaIzx (zp : Byte) (s : State) : Result := loadA (s.load (.izx zp)) s

/-- `LDA ($nn),Y` (R180, R74). -/
def execLdaIzy (zp : Byte) (s : State) : Result := loadA (s.load (.izy zp)) s

/-- LDX (R181): X <- m; SetZN(m). -/
def loadX (m : Byte) (s : State) : Result := .next (s.assignX m)

/-- `LDX #$nn` (R181, R66). -/
def execLdxImm (v : Byte) (s : State) : Result := loadX v s

/-- `LDX $nn` (R181, R67). -/
def execLdxZp (zp : Byte) (s : State) : Result := loadX (s.load (.zp zp)) s

/-- `LDX $nn,Y` (R181, R69). -/
def execLdxZpy (zp : Byte) (s : State) : Result := loadX (s.load (.zpy zp)) s

/-- `LDX $nnnn` (R181, R70). -/
def execLdxAbs (addr : Addr) (s : State) : Result := loadX (s.load (.abs addr)) s

/-- `LDX $nnnn,Y` (R181, R71). -/
def execLdxAbsy (addr : Addr) (s : State) : Result := loadX (s.load (.absy addr)) s

/-- LDY (R182): Y <- m; SetZN(m). -/
def loadY (m : Byte) (s : State) : Result := .next (s.assignY m)

/-- `LDY #$nn` (R182, R66). -/
def execLdyImm (v : Byte) (s : State) : Result := loadY v s

/-- `LDY $nn` (R182, R67). -/
def execLdyZp (zp : Byte) (s : State) : Result := loadY (s.load (.zp zp)) s

/-- `LDY $nn,X` (R182, R68). -/
def execLdyZpx (zp : Byte) (s : State) : Result := loadY (s.load (.zpx zp)) s

/-- `LDY $nnnn` (R182, R70). -/
def execLdyAbs (addr : Addr) (s : State) : Result := loadY (s.load (.abs addr)) s

/-- `LDY $nnnn,X` (R182, R71). -/
def execLdyAbsx (addr : Addr) (s : State) : Result := loadY (s.load (.absx addr)) s

/-- A store (R183 to R185): one write at EA, which is not read; no flags. -/
def storeByte (v : Byte) (o : MemOperand) (s : State) : Result := .next (s.write (s.ea o) v)

/-- `STA $nn` (R183, R67). -/
def execStaZp (zp : Byte) (s : State) : Result := storeByte s.a (.zp zp) s

/-- `STA $nn,X` (R183, R68). -/
def execStaZpx (zp : Byte) (s : State) : Result := storeByte s.a (.zpx zp) s

/-- `STA $nnnn` (R183, R70). -/
def execStaAbs (addr : Addr) (s : State) : Result := storeByte s.a (.abs addr) s

/-- `STA $nnnn,X` (R183, R71). -/
def execStaAbsx (addr : Addr) (s : State) : Result := storeByte s.a (.absx addr) s

/-- `STA $nnnn,Y` (R183, R71). -/
def execStaAbsy (addr : Addr) (s : State) : Result := storeByte s.a (.absy addr) s

/-- `STA ($nn,X)` (R183, R73). -/
def execStaIzx (zp : Byte) (s : State) : Result := storeByte s.a (.izx zp) s

/-- `STA ($nn),Y` (R183, R74). -/
def execStaIzy (zp : Byte) (s : State) : Result := storeByte s.a (.izy zp) s

/-- `STX $nn` (R184, R67). -/
def execStxZp (zp : Byte) (s : State) : Result := storeByte s.x (.zp zp) s

/-- `STX $nn,Y` (R184, R69). -/
def execStxZpy (zp : Byte) (s : State) : Result := storeByte s.x (.zpy zp) s

/-- `STX $nnnn` (R184, R70). -/
def execStxAbs (addr : Addr) (s : State) : Result := storeByte s.x (.abs addr) s

/-- `STY $nn` (R185, R67). -/
def execStyZp (zp : Byte) (s : State) : Result := storeByte s.y (.zp zp) s

/-- `STY $nn,X` (R185, R68). -/
def execStyZpx (zp : Byte) (s : State) : Result := storeByte s.y (.zpx zp) s

/-- `STY $nnnn` (R185, R70). -/
def execStyAbs (addr : Addr) (s : State) : Result := storeByte s.y (.abs addr) s

/-- `TAX` (R186, R77). -/
def execTax (s : State) : Result := .next (s.assignX s.a)

/-- `TAY` (R187, R77). -/
def execTay (s : State) : Result := .next (s.assignY s.a)

/-- `TXA` (R188, R77). -/
def execTxa (s : State) : Result := .next (s.assignA s.x)

/-- `TYA` (R189, R77). -/
def execTya (s : State) : Result := .next (s.assignA s.y)

/-- `TSX` (R190, R77). -/
def execTsx (s : State) : Result := .next (s.assignX s.sp)

/-- `TXS` (R191, R77): "TXS in particular must not touch status". -/
def execTxs (s : State) : Result := .next (s.withSp s.x)

end Sys2Proof.Machine
end

