-- ==== Sys2Proof/Machine/Logic.lean ====
section
/-! DEFINITION. ORA, AND, EOR and BIT (40_logic.md, R100 to R103). -/

namespace Sys2Proof.Machine

/-- ORA (R100): A <- A OR m; SetZN(A). -/
def accumulateOra (m : Byte) (s : State) : Result := .next (s.assignA (s.a ||| m))

/-- `ORA #$nn` (R100, R66). -/
def execOraImm (v : Byte) (s : State) : Result := accumulateOra v s

/-- `ORA $nn` (R100, R67). -/
def execOraZp (zp : Byte) (s : State) : Result := accumulateOra (s.load (.zp zp)) s

/-- `ORA $nn,X` (R100, R68). -/
def execOraZpx (zp : Byte) (s : State) : Result := accumulateOra (s.load (.zpx zp)) s

/-- `ORA $nnnn` (R100, R70). -/
def execOraAbs (addr : Addr) (s : State) : Result := accumulateOra (s.load (.abs addr)) s

/-- `ORA $nnnn,X` (R100, R71). -/
def execOraAbsx (addr : Addr) (s : State) : Result := accumulateOra (s.load (.absx addr)) s

/-- `ORA $nnnn,Y` (R100, R71). -/
def execOraAbsy (addr : Addr) (s : State) : Result := accumulateOra (s.load (.absy addr)) s

/-- `ORA ($nn,X)` (R100, R73). -/
def execOraIzx (zp : Byte) (s : State) : Result := accumulateOra (s.load (.izx zp)) s

/-- `ORA ($nn),Y` (R100, R74). -/
def execOraIzy (zp : Byte) (s : State) : Result := accumulateOra (s.load (.izy zp)) s

/-- AND (R101): A <- A AND m; SetZN(A). -/
def accumulateAnd (m : Byte) (s : State) : Result := .next (s.assignA (s.a &&& m))

/-- `AND #$nn` (R101, R66). -/
def execAndImm (v : Byte) (s : State) : Result := accumulateAnd v s

/-- `AND $nn` (R101, R67). -/
def execAndZp (zp : Byte) (s : State) : Result := accumulateAnd (s.load (.zp zp)) s

/-- `AND $nn,X` (R101, R68). -/
def execAndZpx (zp : Byte) (s : State) : Result := accumulateAnd (s.load (.zpx zp)) s

/-- `AND $nnnn` (R101, R70). -/
def execAndAbs (addr : Addr) (s : State) : Result := accumulateAnd (s.load (.abs addr)) s

/-- `AND $nnnn,X` (R101, R71). -/
def execAndAbsx (addr : Addr) (s : State) : Result := accumulateAnd (s.load (.absx addr)) s

/-- `AND $nnnn,Y` (R101, R71). -/
def execAndAbsy (addr : Addr) (s : State) : Result := accumulateAnd (s.load (.absy addr)) s

/-- `AND ($nn,X)` (R101, R73). -/
def execAndIzx (zp : Byte) (s : State) : Result := accumulateAnd (s.load (.izx zp)) s

/-- `AND ($nn),Y` (R101, R74). -/
def execAndIzy (zp : Byte) (s : State) : Result := accumulateAnd (s.load (.izy zp)) s

/-- EOR (R102): A <- A exclusive OR m; SetZN(A). -/
def accumulateEor (m : Byte) (s : State) : Result := .next (s.assignA (s.a ^^^ m))

/-- `EOR #$nn` (R102, R66). -/
def execEorImm (v : Byte) (s : State) : Result := accumulateEor v s

/-- `EOR $nn` (R102, R67). -/
def execEorZp (zp : Byte) (s : State) : Result := accumulateEor (s.load (.zp zp)) s

/-- `EOR $nn,X` (R102, R68). -/
def execEorZpx (zp : Byte) (s : State) : Result := accumulateEor (s.load (.zpx zp)) s

/-- `EOR $nnnn` (R102, R70). -/
def execEorAbs (addr : Addr) (s : State) : Result := accumulateEor (s.load (.abs addr)) s

/-- `EOR $nnnn,X` (R102, R71). -/
def execEorAbsx (addr : Addr) (s : State) : Result := accumulateEor (s.load (.absx addr)) s

/-- `EOR $nnnn,Y` (R102, R71). -/
def execEorAbsy (addr : Addr) (s : State) : Result := accumulateEor (s.load (.absy addr)) s

/-- `EOR ($nn,X)` (R102, R73). -/
def execEorIzx (zp : Byte) (s : State) : Result := accumulateEor (s.load (.izx zp)) s

/-- `EOR ($nn),Y` (R102, R74). -/
def execEorIzy (zp : Byte) (s : State) : Result := accumulateEor (s.load (.izy zp)) s

/-- BIT (R103): N, V and Z only; A and memory are not written. -/
def testBits (m : Byte) (s : State) : Result := .next (s.withFlags (s.flags.bitTest s.a m))

/-- `BIT $nn` (R103, R67). -/
def execBitZp (zp : Byte) (s : State) : Result := testBits (s.load (.zp zp)) s

/-- `BIT $nnnn` (R103, R70). -/
def execBitAbs (addr : Addr) (s : State) : Result := testBits (s.load (.abs addr)) s

end Sys2Proof.Machine
end

