-- ==== Sys2Proof/Machine/Shift.lean ====
section
/-! DEFINITION. ASL, LSR, ROL and ROR (41_shift_rotate.md, R110 to R114). -/

namespace Sys2Proof.Machine

/-- The accumulator form (R110, R76): the operand is A and the result goes to A. -/
def shiftA (f : Byte → Bool → Byte × Bool) (s : State) : Result :=
  .next ((s.withFlags (s.flags.shifted (f s.a s.flags.c))).withA (f s.a s.flags.c).1)

/-- The memory form (R110, R65, R78): one read of EA, then one write of the same EA. -/
def shiftMem (f : Byte → Bool → Byte × Bool) (o : MemOperand) (s : State) : Result :=
  .next ((s.withFlags (s.flags.shifted (f (s.load o) s.flags.c))).write (s.ea o) (f (s.load o) s.flags.c).1)

/-- `ASL A` (R111, R76). -/
def execAslAcc (s : State) : Result := shiftA aslByte s

/-- `ASL $nn` (R111, R67). -/
def execAslZp (zp : Byte) (s : State) : Result := shiftMem aslByte (.zp zp) s

/-- `ASL $nn,X` (R111, R68). -/
def execAslZpx (zp : Byte) (s : State) : Result := shiftMem aslByte (.zpx zp) s

/-- `ASL $nnnn` (R111, R70). -/
def execAslAbs (addr : Addr) (s : State) : Result := shiftMem aslByte (.abs addr) s

/-- `ASL $nnnn,X` (R111, R71). -/
def execAslAbsx (addr : Addr) (s : State) : Result := shiftMem aslByte (.absx addr) s

/-- `LSR A` (R112, R76). -/
def execLsrAcc (s : State) : Result := shiftA lsrByte s

/-- `LSR $nn` (R112, R67). -/
def execLsrZp (zp : Byte) (s : State) : Result := shiftMem lsrByte (.zp zp) s

/-- `LSR $nn,X` (R112, R68). -/
def execLsrZpx (zp : Byte) (s : State) : Result := shiftMem lsrByte (.zpx zp) s

/-- `LSR $nnnn` (R112, R70). -/
def execLsrAbs (addr : Addr) (s : State) : Result := shiftMem lsrByte (.abs addr) s

/-- `LSR $nnnn,X` (R112, R71). -/
def execLsrAbsx (addr : Addr) (s : State) : Result := shiftMem lsrByte (.absx addr) s

/-- `ROL A` (R113, R76). -/
def execRolAcc (s : State) : Result := shiftA rolByte s

/-- `ROL $nn` (R113, R67). -/
def execRolZp (zp : Byte) (s : State) : Result := shiftMem rolByte (.zp zp) s

/-- `ROL $nn,X` (R113, R68). -/
def execRolZpx (zp : Byte) (s : State) : Result := shiftMem rolByte (.zpx zp) s

/-- `ROL $nnnn` (R113, R70). -/
def execRolAbs (addr : Addr) (s : State) : Result := shiftMem rolByte (.abs addr) s

/-- `ROL $nnnn,X` (R113, R71). -/
def execRolAbsx (addr : Addr) (s : State) : Result := shiftMem rolByte (.absx addr) s

/-- `ROR A` (R114, R76). -/
def execRorAcc (s : State) : Result := shiftA rorByte s

/-- `ROR $nn` (R114, R67). -/
def execRorZp (zp : Byte) (s : State) : Result := shiftMem rorByte (.zp zp) s

/-- `ROR $nn,X` (R114, R68). -/
def execRorZpx (zp : Byte) (s : State) : Result := shiftMem rorByte (.zpx zp) s

/-- `ROR $nnnn` (R114, R70). -/
def execRorAbs (addr : Addr) (s : State) : Result := shiftMem rorByte (.abs addr) s

/-- `ROR $nnnn,X` (R114, R71). -/
def execRorAbsx (addr : Addr) (s : State) : Result := shiftMem rorByte (.absx addr) s

end Sys2Proof.Machine
end

