-- ==== Sys2Proof/Machine/Stack.lean ====
section
/-! DEFINITION. PHA, PLA, PHP and PLP (48_stack.md, R200 to R203). -/

namespace Sys2Proof.Machine

/-- `PHA` (R200, R77). -/
def execPha (s : State) : Result := .next (s.push s.a)

/-- `PLA` (R201, R77). -/
def execPla (s : State) : Result := .next (s.pulled.assignA s.pullByte)

/-- `PHP` (R202, R77). -/
def execPhp (s : State) : Result := .next (s.push s.flags.statusByte)

/-- `PLP` (R203, R77). -/
def execPlp (s : State) : Result := .next (s.pulled.withFlags (s.flags.setStatusByte s.pullByte))

end Sys2Proof.Machine
end

