-- ==== Sys2Proof/Machine/Dispatch.lean ====
section
/-! DEFINITION. The dispatch of instructions to their meanings: one arm per constructor of `Instr`, one direct call each.
`exec i s` runs instruction i as step 5 of R81, in the state the step has prepared (`State.enter`). -/

namespace Sys2Proof.Machine

def exec (i : Instr) (s : State) : Host.Outcome State Fault Refusal :=
  match i with
  | .oraImm v => Sys2Proof.Machine.execOraImm v s
  | .oraZp zp => Sys2Proof.Machine.execOraZp zp s
  | .oraZpx zp => Sys2Proof.Machine.execOraZpx zp s
  | .oraAbs addr => Sys2Proof.Machine.execOraAbs addr s
  | .oraAbsx addr => Sys2Proof.Machine.execOraAbsx addr s
  | .oraAbsy addr => Sys2Proof.Machine.execOraAbsy addr s
  | .oraIzx zp => Sys2Proof.Machine.execOraIzx zp s
  | .oraIzy zp => Sys2Proof.Machine.execOraIzy zp s
  | .andImm v => Sys2Proof.Machine.execAndImm v s
  | .andZp zp => Sys2Proof.Machine.execAndZp zp s
  | .andZpx zp => Sys2Proof.Machine.execAndZpx zp s
  | .andAbs addr => Sys2Proof.Machine.execAndAbs addr s
  | .andAbsx addr => Sys2Proof.Machine.execAndAbsx addr s
  | .andAbsy addr => Sys2Proof.Machine.execAndAbsy addr s
  | .andIzx zp => Sys2Proof.Machine.execAndIzx zp s
  | .andIzy zp => Sys2Proof.Machine.execAndIzy zp s
  | .eorImm v => Sys2Proof.Machine.execEorImm v s
  | .eorZp zp => Sys2Proof.Machine.execEorZp zp s
  | .eorZpx zp => Sys2Proof.Machine.execEorZpx zp s
  | .eorAbs addr => Sys2Proof.Machine.execEorAbs addr s
  | .eorAbsx addr => Sys2Proof.Machine.execEorAbsx addr s
  | .eorAbsy addr => Sys2Proof.Machine.execEorAbsy addr s
  | .eorIzx zp => Sys2Proof.Machine.execEorIzx zp s
  | .eorIzy zp => Sys2Proof.Machine.execEorIzy zp s
  | .bitZp zp => Sys2Proof.Machine.execBitZp zp s
  | .bitAbs addr => Sys2Proof.Machine.execBitAbs addr s
  | .aslAcc => Sys2Proof.Machine.execAslAcc s
  | .aslZp zp => Sys2Proof.Machine.execAslZp zp s
  | .aslZpx zp => Sys2Proof.Machine.execAslZpx zp s
  | .aslAbs addr => Sys2Proof.Machine.execAslAbs addr s
  | .aslAbsx addr => Sys2Proof.Machine.execAslAbsx addr s
  | .lsrAcc => Sys2Proof.Machine.execLsrAcc s
  | .lsrZp zp => Sys2Proof.Machine.execLsrZp zp s
  | .lsrZpx zp => Sys2Proof.Machine.execLsrZpx zp s
  | .lsrAbs addr => Sys2Proof.Machine.execLsrAbs addr s
  | .lsrAbsx addr => Sys2Proof.Machine.execLsrAbsx addr s
  | .rolAcc => Sys2Proof.Machine.execRolAcc s
  | .rolZp zp => Sys2Proof.Machine.execRolZp zp s
  | .rolZpx zp => Sys2Proof.Machine.execRolZpx zp s
  | .rolAbs addr => Sys2Proof.Machine.execRolAbs addr s
  | .rolAbsx addr => Sys2Proof.Machine.execRolAbsx addr s
  | .rorAcc => Sys2Proof.Machine.execRorAcc s
  | .rorZp zp => Sys2Proof.Machine.execRorZp zp s
  | .rorZpx zp => Sys2Proof.Machine.execRorZpx zp s
  | .rorAbs addr => Sys2Proof.Machine.execRorAbs addr s
  | .rorAbsx addr => Sys2Proof.Machine.execRorAbsx addr s
  | .adcImm v => Sys2Proof.Machine.execAdcImm v s
  | .adcZp zp => Sys2Proof.Machine.execAdcZp zp s
  | .adcZpx zp => Sys2Proof.Machine.execAdcZpx zp s
  | .adcAbs addr => Sys2Proof.Machine.execAdcAbs addr s
  | .adcAbsx addr => Sys2Proof.Machine.execAdcAbsx addr s
  | .adcAbsy addr => Sys2Proof.Machine.execAdcAbsy addr s
  | .adcIzx zp => Sys2Proof.Machine.execAdcIzx zp s
  | .adcIzy zp => Sys2Proof.Machine.execAdcIzy zp s
  | .sbcImm v => Sys2Proof.Machine.execSbcImm v s
  | .sbcZp zp => Sys2Proof.Machine.execSbcZp zp s
  | .sbcZpx zp => Sys2Proof.Machine.execSbcZpx zp s
  | .sbcAbs addr => Sys2Proof.Machine.execSbcAbs addr s
  | .sbcAbsx addr => Sys2Proof.Machine.execSbcAbsx addr s
  | .sbcAbsy addr => Sys2Proof.Machine.execSbcAbsy addr s
  | .sbcIzx zp => Sys2Proof.Machine.execSbcIzx zp s
  | .sbcIzy zp => Sys2Proof.Machine.execSbcIzy zp s
  | .cmpImm v => Sys2Proof.Machine.execCmpImm v s
  | .cmpZp zp => Sys2Proof.Machine.execCmpZp zp s
  | .cmpZpx zp => Sys2Proof.Machine.execCmpZpx zp s
  | .cmpAbs addr => Sys2Proof.Machine.execCmpAbs addr s
  | .cmpAbsx addr => Sys2Proof.Machine.execCmpAbsx addr s
  | .cmpAbsy addr => Sys2Proof.Machine.execCmpAbsy addr s
  | .cmpIzx zp => Sys2Proof.Machine.execCmpIzx zp s
  | .cmpIzy zp => Sys2Proof.Machine.execCmpIzy zp s
  | .cpxImm v => Sys2Proof.Machine.execCpxImm v s
  | .cpxZp zp => Sys2Proof.Machine.execCpxZp zp s
  | .cpxAbs addr => Sys2Proof.Machine.execCpxAbs addr s
  | .cpyImm v => Sys2Proof.Machine.execCpyImm v s
  | .cpyZp zp => Sys2Proof.Machine.execCpyZp zp s
  | .cpyAbs addr => Sys2Proof.Machine.execCpyAbs addr s
  | .incZp zp => Sys2Proof.Machine.execIncZp zp s
  | .incZpx zp => Sys2Proof.Machine.execIncZpx zp s
  | .incAbs addr => Sys2Proof.Machine.execIncAbs addr s
  | .incAbsx addr => Sys2Proof.Machine.execIncAbsx addr s
  | .decZp zp => Sys2Proof.Machine.execDecZp zp s
  | .decZpx zp => Sys2Proof.Machine.execDecZpx zp s
  | .decAbs addr => Sys2Proof.Machine.execDecAbs addr s
  | .decAbsx addr => Sys2Proof.Machine.execDecAbsx addr s
  | .inx => Sys2Proof.Machine.execInx s
  | .iny => Sys2Proof.Machine.execIny s
  | .dex => Sys2Proof.Machine.execDex s
  | .dey => Sys2Proof.Machine.execDey s
  | .clc => Sys2Proof.Machine.execClc s
  | .sec => Sys2Proof.Machine.execSec s
  | .cli => Sys2Proof.Machine.execCli s
  | .sei => Sys2Proof.Machine.execSei s
  | .cld => Sys2Proof.Machine.execCld s
  | .sed => Sys2Proof.Machine.execSed s
  | .clv => Sys2Proof.Machine.execClv s
  | .bpl off => Sys2Proof.Machine.execBpl off s
  | .bmi off => Sys2Proof.Machine.execBmi off s
  | .bvc off => Sys2Proof.Machine.execBvc off s
  | .bvs off => Sys2Proof.Machine.execBvs off s
  | .bcc off => Sys2Proof.Machine.execBcc off s
  | .bcs off => Sys2Proof.Machine.execBcs off s
  | .bne off => Sys2Proof.Machine.execBne off s
  | .beq off => Sys2Proof.Machine.execBeq off s
  | .ldaImm v => Sys2Proof.Machine.execLdaImm v s
  | .ldaZp zp => Sys2Proof.Machine.execLdaZp zp s
  | .ldaZpx zp => Sys2Proof.Machine.execLdaZpx zp s
  | .ldaAbs addr => Sys2Proof.Machine.execLdaAbs addr s
  | .ldaAbsx addr => Sys2Proof.Machine.execLdaAbsx addr s
  | .ldaAbsy addr => Sys2Proof.Machine.execLdaAbsy addr s
  | .ldaIzx zp => Sys2Proof.Machine.execLdaIzx zp s
  | .ldaIzy zp => Sys2Proof.Machine.execLdaIzy zp s
  | .ldxImm v => Sys2Proof.Machine.execLdxImm v s
  | .ldxZp zp => Sys2Proof.Machine.execLdxZp zp s
  | .ldxZpy zp => Sys2Proof.Machine.execLdxZpy zp s
  | .ldxAbs addr => Sys2Proof.Machine.execLdxAbs addr s
  | .ldxAbsy addr => Sys2Proof.Machine.execLdxAbsy addr s
  | .ldyImm v => Sys2Proof.Machine.execLdyImm v s
  | .ldyZp zp => Sys2Proof.Machine.execLdyZp zp s
  | .ldyZpx zp => Sys2Proof.Machine.execLdyZpx zp s
  | .ldyAbs addr => Sys2Proof.Machine.execLdyAbs addr s
  | .ldyAbsx addr => Sys2Proof.Machine.execLdyAbsx addr s
  | .staZp zp => Sys2Proof.Machine.execStaZp zp s
  | .staZpx zp => Sys2Proof.Machine.execStaZpx zp s
  | .staAbs addr => Sys2Proof.Machine.execStaAbs addr s
  | .staAbsx addr => Sys2Proof.Machine.execStaAbsx addr s
  | .staAbsy addr => Sys2Proof.Machine.execStaAbsy addr s
  | .staIzx zp => Sys2Proof.Machine.execStaIzx zp s
  | .staIzy zp => Sys2Proof.Machine.execStaIzy zp s
  | .stxZp zp => Sys2Proof.Machine.execStxZp zp s
  | .stxZpy zp => Sys2Proof.Machine.execStxZpy zp s
  | .stxAbs addr => Sys2Proof.Machine.execStxAbs addr s
  | .styZp zp => Sys2Proof.Machine.execStyZp zp s
  | .styZpx zp => Sys2Proof.Machine.execStyZpx zp s
  | .styAbs addr => Sys2Proof.Machine.execStyAbs addr s
  | .tax => Sys2Proof.Machine.execTax s
  | .tay => Sys2Proof.Machine.execTay s
  | .txa => Sys2Proof.Machine.execTxa s
  | .tya => Sys2Proof.Machine.execTya s
  | .tsx => Sys2Proof.Machine.execTsx s
  | .txs => Sys2Proof.Machine.execTxs s
  | .pha => Sys2Proof.Machine.execPha s
  | .pla => Sys2Proof.Machine.execPla s
  | .php => Sys2Proof.Machine.execPhp s
  | .plp => Sys2Proof.Machine.execPlp s
  | .jmpAbs addr => Sys2Proof.Machine.execJmpAbs addr s
  | .jmpInd ptr => Sys2Proof.Machine.execJmpInd ptr s
  | .jsr addr => Sys2Proof.Machine.execJsr addr s
  | .rts => Sys2Proof.Machine.execRts s
  | .brk => Sys2Proof.Machine.execBrk s
  | .rti => Sys2Proof.Machine.execRti s
  | .nop => Sys2Proof.Machine.execNop s

end Sys2Proof.Machine
end

