-- ==== Sys2Proof/Machine/Fetch.lean ====
section
/-! DEFINITION. What the step does around an instruction rule: reading the opcode and operand bytes (R62, R81 steps 1
to 3), advancing PC (step 4), and placing an instruction's bytes where the next step fetches them. -/

namespace Sys2Proof.Machine

/-- `Table[op]` for the opcode byte at PC (R81 steps 1 and 2). -/
def State.fetchEntry (s : State) : Entry := dispatch (s.read s.pc)

/-- The instruction at PC, or none where the opcode is undefined. The operand bytes are read from the two addresses
after PC, mod 2^16 (R62); an entry takes as many as its mode requires, and reads change nothing (R42). -/
def State.fetch (s : State) : Option Instr := s.fetchEntry.build (s.read (s.pc + 1)) (s.read (s.pc + 2))

/-- BRK and RTI, which the step stops before reading operands or advancing PC (R81, R231). -/
def raisesUnimplemented (i : Instr) : Bool := i.mnemonic == .brk || i.mnemonic == .rti

/-- The state in which the instruction rule runs (R81 step 4, R24): PC advanced past the instruction, mod 2^16; for
BRK and RTI the state before the step (log 11). -/
def State.enter (s : State) (i : Instr) : State :=
  if raisesUnimplemented i then s else s.withPc (s.pc + BitVec.ofNat 16 i.length)

/-- The bytes at consecutive addresses from `addr` on, mod 2^16. -/
def State.writeBytes (s : State) (addr : Addr) : List Byte → State
  | [] => s
  | v :: rest => (s.write addr v).writeBytes (addr + 1) rest

end Sys2Proof.Machine
end

