-- ==== Sys2Proof/Machine/Step.lean ====
section
/-! DEFINITION. One step (R81): fetch, decode, advance PC, execute. -/

namespace Sys2Proof.Machine

/-- `step()` (R81). -/
def step (s : State) : Host.Outcome State Fault Refusal :=
  match s.fetch with
  | none => raiseInvalidOpcode (s.read s.pc) s
  | some i => exec i (s.enter i)

/-- `s` with the instruction of a table word stored at PC, where the next step fetches it (log 8). -/
def State.withFetchWord (s : State) (nbits w : Nat) : State := s.writeBytes s.pc (tableWordBytes nbits w)

end Sys2Proof.Machine
end

