-- ==== Sys2Proof/Machine/Accesses.lean ====
section
/-! DEFINITION. The memory accesses of one step, in order (R55): exactly these and no others, with no dummy reads or
writes. The list is computed beside `step`, not by it (log 12); that the two agree is stated in the obligations, and
`Bus.step` makes these accesses of its host. -/

namespace Sys2Proof.Machine

/-- One access of the core: `MemRead(addr, 1)` or `MemWrite(addr, 1, v)` (R42, R43, R45). -/
inductive Access where
  | read (addr : Addr)
  | write (addr : Addr) (v : Byte)
  deriving DecidableEq, Repr

/-- R55 items 1 and 2: the opcode read, then the operand bytes the table entry takes. -/
def State.fetchAccesses (s : State) : List Access :=
  match s.fetchEntry.operandBytes with
  | 0 => [.read s.pc]
  | 1 => [.read s.pc, .read (s.pc + 1)]
  | _ => [.read s.pc, .read (s.pc + 1), .read (s.pc + 2)]

/-- The two reads of a zero-page pointer, low byte then high byte (R73, R74). -/
def zeroPagePointerAccesses (p : Byte) : List Access := [.read (zext16 p), .read (zext16 (p + 1))]

/-- R55 item 3 for the memory modes. -/
def State.pointerAccesses (s : State) : MemOperand → List Access
  | .izx zp => zeroPagePointerAccesses (zp + s.x)
  | .izy zp => zeroPagePointerAccesses zp
  | .zp _ | .zpx _ | .zpy _ | .abs _ | .absx _ | .absy _ => []

/-- One read at EA, then one write of the same EA (R65). -/
def State.modifyAccesses (s : State) (o : MemOperand) (v : Byte) : List Access :=
  [.read (s.ea o), .write (s.ea o) v]

/-- R55 item 4 for an instruction with a memory operand: one read for a read instruction, one write for a store, a read
and a write for a read-modify-write instruction; JMP and JSR take EA as a target and access nothing there. -/
def State.dataAccesses (s : State) (o : MemOperand) : Mnemonic → List Access
  | .ora | .and | .eor | .bit | .adc | .sbc | .cmp | .cpx | .cpy | .lda | .ldx | .ldy => [.read (s.ea o)]
  | .sta => [.write (s.ea o) s.a]
  | .stx => [.write (s.ea o) s.x]
  | .sty => [.write (s.ea o) s.y]
  | .asl => s.modifyAccesses o (aslByte (s.load o) s.flags.c).1
  | .lsr => s.modifyAccesses o (lsrByte (s.load o) s.flags.c).1
  | .rol => s.modifyAccesses o (rolByte (s.load o) s.flags.c).1
  | .ror => s.modifyAccesses o (rorByte (s.load o) s.flags.c).1
  | .inc => s.modifyAccesses o (s.load o + 1)
  | .dec => s.modifyAccesses o (s.load o - 1)
  | .inx | .iny | .dex | .dey | .clc | .sec | .cli | .sei | .cld | .sed | .clv => []
  | .bpl | .bmi | .bvc | .bvs | .bcc | .bcs | .bne | .beq => []
  | .tax | .tay | .txa | .tya | .tsx | .txs | .pha | .pla | .php | .plp => []
  | .jmp | .jsr | .rts | .brk | .rti | .nop => []

/-- R55 item 3: the pointer reads of the operand's mode, low byte then high byte; only IND, IZX and IZY have any. -/
def State.operandPointerAccesses (s : State) : Operand → List Access
  | .mem o => s.pointerAccesses o
  | .ind ptr => [.read ptr, .read (indirectHighAddr Config.jmpIndirectPageWrap ptr)]
  | .imp | .acc | .imm _ | .rel _ => []

/-- R55 item 4 for the operand. -/
def State.operandDataAccesses (s : State) (mn : Mnemonic) : Operand → List Access
  | .mem o => s.dataAccesses o mn
  | .imp | .acc | .imm _ | .ind _ | .rel _ => []

/-- The pushes and pulls of R48 and R49, in the order of the instruction's pseudocode. -/
def State.stackAccesses (s : State) : Mnemonic → List Access
  | .pha => [.write (stackAddr s.sp) s.a]
  | .php => [.write (stackAddr s.sp) s.flags.statusByte]
  | .pla | .plp => [.read (stackAddr (s.sp + 1))]
  | .jsr => [.write (stackAddr s.sp) (highByte (s.pc - 1)), .write (stackAddr (s.sp - 1)) (lowByte (s.pc - 1))]
  | .rts => [.read (stackAddr (s.sp + 1)), .read (stackAddr (s.sp + 2))]
  | .ora | .and | .eor | .bit | .adc | .sbc | .cmp | .cpx | .cpy | .lda | .ldx | .ldy => []
  | .sta | .stx | .sty | .asl | .lsr | .rol | .ror | .inc | .dec => []
  | .inx | .iny | .dex | .dey | .clc | .sec | .cli | .sei | .cld | .sed | .clv => []
  | .bpl | .bmi | .bvc | .bvs | .bcc | .bcs | .bne | .beq => []
  | .tax | .tay | .txa | .tya | .tsx | .txs | .jmp | .brk | .rti | .nop => []

/-- The accesses of an instruction rule that runs in `s` (R55 items 3 and 4). -/
def State.ruleAccesses (s : State) (i : Instr) : List Access :=
  s.operandPointerAccesses i.operand ++ s.operandDataAccesses i.mnemonic i.operand ++ s.stackAccesses i.mnemonic

/-- The accesses of one step (R55). An error step performs only the opcode read. -/
def State.stepAccesses (s : State) : List Access :=
  s.fetchAccesses ++
    match s.fetch with
    | none => []
    | some i => (s.enter i).ruleAccesses i

/-- The address of a read. -/
def Access.readAddr : Access → Option Addr
  | .read addr => some addr
  | .write _ _ => none

/-- The address and the byte of a write. -/
def Access.written : Access → Option (Addr × Byte)
  | .read _ => none
  | .write addr v => some (addr, v)

/-- What an access does to memory: a write stores its byte, a read changes nothing (R42, R43). -/
def Access.apply (m : Memory) : Access → Memory
  | .read _ => m
  | .write addr v => m.write addr v

end Sys2Proof.Machine
end

