-- ==== Sys2Proof/Machine/HostInterface.lean ====
section
/-! DEFINITION. What the core exposes to its host between steps (R240): `step()` with the value it returns (R82, R232),
and read and write accessors for every register, flag and memory byte. Construction is `State.construct`. -/

namespace Sys2Proof.Machine

/-- `InstructionInfo{opcode, pc}` (R82): the opcode byte executed and the address it was fetched from. -/
structure InstructionInfo where
  opcode : Byte
  pc : Addr
  deriving DecidableEq, Repr

/-- `Result<InstructionInfo, Error>` (R232). -/
inductive StepReturn where
  /-- A successful step. -/
  | ok (info : InstructionInfo)
  /-- A step that returned an error. -/
  | error (e : Fault)
  /-- A step the model gives no meaning; no step of this model returns it. -/
  | refused (r : Refusal)
  deriving DecidableEq, Repr

/-- One call of `step()` as the host sees it: the value returned, and the state afterwards, which after an error is
the state before (R81, R232, R235). -/
def hostStep (s : State) : StepReturn × State :=
  match step s with
  | .next t => (.ok { opcode := s.read s.pc, pc := s.pc }, t)
  | .fault e => (.error e, s)
  | .refused r => (.refused r, s)

/-- The 8-bit registers (R20). -/
inductive ByteRegister where
  | a | x | y | sp
  deriving DecidableEq, Repr

/-- The status flags by name, the unused bit among them (R20, R25). -/
inductive FlagName where
  | n | v | u | b | d | i | z | c
  deriving DecidableEq, Repr

/-- A host write between steps (R240). -/
inductive HostWrite where
  | register (r : ByteRegister) (v : Byte)
  | pc (v : Addr)
  | flag (f : FlagName) (b : Bool)
  | byte (addr : Addr) (v : Byte)
  deriving DecidableEq, Repr

/-- The host reads an 8-bit register (R240). -/
def State.hostReadRegister (s : State) : ByteRegister → Byte
  | .a => s.a
  | .x => s.x
  | .y => s.y
  | .sp => s.sp

/-- The host reads PC (R240). -/
def State.hostReadPc (s : State) : Addr := s.pc

/-- The host reads a flag (R240); U reads as its constant (R27). -/
def State.hostReadFlag (s : State) : FlagName → Bool
  | .n => s.flags.n
  | .v => s.flags.v
  | .u => s.flags.uValue
  | .b => s.flags.b
  | .d => s.flags.d
  | .i => s.flags.i
  | .z => s.flags.z
  | .c => s.flags.c

/-- The host reads a memory byte: `MemRead` (R240, R42). -/
def State.hostReadByte (s : State) (addr : Addr) : Byte := s.read addr

/-- A host write to a flag sets it exactly, except U, which stays 1 (R240, R27). -/
def Flags.hostWrite (f : Flags) : FlagName → Bool → Flags
  | .n, b => f.setN b
  | .v, b => f.setV b
  | .u, _ => f
  | .b, b => f.setB b
  | .d, b => f.setD b
  | .i, b => f.setI b
  | .z, b => f.setZ b
  | .c, b => f.setC b

/-- A host write sets the register, flag or memory byte exactly (R240). -/
def State.hostWrite (s : State) : HostWrite → State
  | .register .a v => s.withA v
  | .register .x v => s.withX v
  | .register .y v => s.withY v
  | .register .sp v => s.withSp v
  | .pc v => s.withPc v
  | .flag f b => s.withFlags (s.flags.hostWrite f b)
  | .byte addr v => s.write addr v

end Sys2Proof.Machine
end

