-- ==== Sys2Proof/Machine/Bus.lean ====
section
/-! DEFINITION. The parameter `Bus` (R5, R45, D14): the core over a host that wraps its memory accesses. The host is any
type of states with a `readByte` and a `writeByte`; every byte a read returns is the host's answer, which the core does
not fix. A step asks the bus for exactly the accesses of R55, in order (the list of Accesses.lean, log 12), and runs the
instruction rule (`exec`) on the bytes it was given; each phase below reads an address at most once, so those bytes are
all the rule can see. The default bus is the plain buffer of R41, and over it this step is `hostStep` (log 6). -/

namespace Sys2Proof.Machine

/-- A host's interposition on memory accesses (R5, R45): its own state is of type `μ`, and either access may change it. -/
structure Bus (μ : Type) where
  /-- The byte the host returns for `MemRead(addr, 1)`, and its state afterwards. -/
  readByte : Addr → μ → Byte × μ
  /-- The host's state after `MemWrite(addr, 1, v)`. -/
  writeByte : Addr → Byte → μ → μ

/-- The default: the plain buffer (R41 to R43). -/
def Bus.plain : Bus Memory where
  readByte addr m := (m.read addr, m)
  writeByte addr v m := m.write addr v

/-- The bytes a host gives for reads of these addresses, in order, each beside its address; and its state afterwards. -/
def Bus.readAll {μ : Type} (bus : Bus μ) : List Addr → μ → List (Addr × Byte) × μ
  | [], h => ([], h)
  | addr :: rest, h =>
    let got := bus.readByte addr h
    let more := bus.readAll rest got.2
    ((addr, got.1) :: more.1, more.2)

/-- The host's state after these writes, in order. -/
def Bus.writeAll {μ : Type} (bus : Bus μ) : List (Addr × Byte) → μ → μ
  | [], h => h
  | (addr, v) :: rest, h => bus.writeAll rest (bus.writeByte addr v h)

/-- The register file (R20), without memory. -/
structure Registers where
  a : Byte
  x : Byte
  y : Byte
  sp : Byte
  pc : Addr
  flags : Flags
  deriving DecidableEq, Repr

/-- The register file of a state. -/
def State.registers (s : State) : Registers :=
  { a := s.a, x := s.x, y := s.y, sp := s.sp, pc := s.pc, flags := s.flags }

/-- The state with these registers and this memory. -/
def Registers.over (r : Registers) (m : Memory) : State :=
  { a := r.a, x := r.x, y := r.y, sp := r.sp, pc := r.pc, flags := r.flags, mem := m }

/-- The buffer that holds the bytes read and nothing else. -/
def Memory.holding (bytes : List (Addr × Byte)) : Memory :=
  bytes.foldl (fun m cell => Memory.write m cell.1 cell.2) []

/-- The registers over the buffer that holds the bytes read and nothing else. -/
def Registers.given (r : Registers) (bytes : List (Addr × Byte)) : State := r.over (Memory.holding bytes)

/-- The ABS form of the nine mnemonics that have a mode with a pointer in memory (30_encoding.md section 7). -/
def absForm (ea : Addr) : Mnemonic → Option Instr
  | .ora => some (.oraAbs ea)
  | .and => some (.andAbs ea)
  | .eor => some (.eorAbs ea)
  | .adc => some (.adcAbs ea)
  | .sbc => some (.sbcAbs ea)
  | .cmp => some (.cmpAbs ea)
  | .lda => some (.ldaAbs ea)
  | .sta => some (.staAbs ea)
  | .jmp => some (.jmpAbs ea)
  | .bit | .asl | .lsr | .rol | .ror | .cpx | .cpy | .inc | .dec | .inx | .iny | .dex | .dey => none
  | .clc | .sec | .cli | .sei | .cld | .sed | .clv => none
  | .bpl | .bmi | .bvc | .bvs | .bcc | .bcs | .bne | .beq => none
  | .ldx | .ldy | .stx | .sty | .tax | .tay | .txa | .tya | .tsx | .txs => none
  | .pha | .pla | .php | .plp | .jsr | .rts | .brk | .rti | .nop => none

/-- What is left of an instruction once its pointer bytes are read: its operation at the address they give, which is its
ABS form there, since IND, IZX and IZY only compute an EA (R65, R72 to R74). Other modes have no pointer bytes. -/
def State.resolved (s : State) (i : Instr) : Instr :=
  match i.operand with
  | .mem (.izx zp) => (absForm (s.ea (.izx zp)) i.mnemonic).getD i
  | .mem (.izy zp) => (absForm (s.ea (.izy zp)) i.mnemonic).getD i
  | .ind ptr => (absForm (s.eaIndirect ptr) i.mnemonic).getD i
  | .mem (.zp _) | .mem (.zpx _) | .mem (.zpy _) | .mem (.abs _) | .mem (.absx _) | .mem (.absy _) => i
  | .imp | .acc | .imm _ | .rel _ => i

/-- The registers over the instruction's bytes (R55 items 1 and 2): the opcode read, then the operand bytes it asks for. -/
def Bus.fetch {μ : Type} (bus : Bus μ) (r : Registers) (h : μ) : State × μ :=
  let opcode := bus.readAll [r.pc] h
  let operands := bus.readAll ((r.given opcode.1).fetchAccesses.tail.filterMap Access.readAddr) opcode.2
  (r.given (opcode.1 ++ operands.1), operands.2)

/-- An instruction rule over a bus (R55 items 3 and 4): the pointer reads, the other reads, the rule, its writes. -/
def Bus.runRule {μ : Type} (bus : Bus μ) (i : Instr) (r : Registers) (h : μ) : Result × μ :=
  let pointer := bus.readAll (((r.over []).operandPointerAccesses i.operand).filterMap Access.readAddr) h
  let rule := (r.given pointer.1).resolved i
  let data := bus.readAll (((r.over []).ruleAccesses rule).filterMap Access.readAddr) pointer.2
  (exec rule (r.given data.1),
    bus.writeAll (((r.given data.1).ruleAccesses rule).filterMap Access.written) data.2)

/-- `step()` over a bus (R81, R45): the value returned, the registers and the host's state afterwards. After an error
the registers are as before (R235); the host has seen the opcode read. -/
def Bus.step {μ : Type} (bus : Bus μ) (r : Registers) (h : μ) : StepReturn × Registers × μ :=
  let fetched := bus.fetch r h
  let opcode := fetched.1.read r.pc
  match fetched.1.fetch with
  | none => (.error (.invalidOpcode opcode r.pc), r, fetched.2)
  | some i =>
    match bus.runRule i (fetched.1.enter i).registers fetched.2 with
    | (.next t, h') => (.ok { opcode := opcode, pc := r.pc }, t.registers, h')
    | (.fault e, h') => (.error e, r, h')
    | (.refused e, h') => (.refused e, r, h')

/-- Construction over a bus: the registers of R262, with PC read through the bus at the reset vector, low byte first
(R44, R45, R263). What the host's memory holds is the host's own (R265). -/
def Bus.construct {μ : Type} (bus : Bus μ) (c : Config.ResetRegs) (h : μ) : Registers × μ :=
  let vector := bus.readAll [Config.resetVector, Config.resetVector + 1] h
  ({ a := c.a, x := c.x, y := c.y, sp := Config.resetSp,
     pc := (Memory.holding vector.1).readWord Config.resetVector,
     flags := Flags.construct c }, vector.2)

/-! ### The core's side of the interface alone -/

/-- The host's state after a sequence of accesses, in order. -/
def Bus.replay {μ : Type} (bus : Bus μ) : List Access → μ → μ
  | [], h => h
  | .read addr :: rest, h => bus.replay rest (bus.readByte addr h).2
  | .write addr v :: rest, h => bus.replay rest (bus.writeByte addr v h)

/-- The bytes the host returns in that sequence, in order. -/
def Bus.answers {μ : Type} (bus : Bus μ) : List Access → μ → List Byte
  | [], _ => []
  | .read addr :: rest, h => (bus.readByte addr h).1 :: bus.answers rest (bus.readByte addr h).2
  | .write addr v :: rest, h => bus.answers rest (bus.writeByte addr v h)

/-- Bytes still to be answered, and the accesses made so far. -/
structure Script where
  inputs : List Byte
  log : List Access
  deriving DecidableEq, Repr

/-- The bus with no host behind it: reads are answered from bytes given beforehand, and every access is recorded. With no
byte left it answers 0x00; no statement rests on that answer (log 18). -/
def Bus.scripted : Bus Script where
  readByte addr c := (c.inputs.headD 0x00, { inputs := c.inputs.tail, log := c.log ++ [.read addr] })
  writeByte addr v c := { c with log := c.log ++ [.write addr v] }

end Sys2Proof.Machine
end

