-- ==== Sys2Proof/Safety.lean ====
section
/-! DEFINITION. What counts as a safe run, in the terms the statements use: the invariant of State, the states a run
can reach (R240, R260, R270), and a step that completes. -/

namespace Sys2Proof.Machine

/-- The invariant of State: memory is in its canonical form, so that equal memories are equal data (log 4). Every other
field is right by its type: widths by the bit vectors, U by its one-valued type (R20, R27). -/
def State.Inv (s : State) : Prop := s.mem.wf = true

/-- A step that completes one instruction, rather than returning an error (R232). -/
def Completes (s : State) : Prop := ∃ t, step s = .next t

/-- The states the host can bring the core into: by construction, by steps that complete, and by writes between steps
(R240, R260). A step that returns an error leaves the state as it was (R235), so it reaches nothing new. -/
inductive Reachable : State → Prop where
  | construct (image : List Byte) (r : Config.ResetRegs) : Reachable (State.construct image r)
  | step {s t : State} (reached : Reachable s) (completed : Machine.step s = .next t) : Reachable t
  | host {s : State} (reached : Reachable s) (w : HostWrite) : Reachable (s.hostWrite w)

end Sys2Proof.Machine
end

