-- ==== Sys2Proof/Certificates/Slice0/Obligations.lean ====
section
/-! DEFINITION. The statements for the provers: the numbered rules of spec/ that say what an instruction or the machine
does, and whole-machine properties. Before them stand the terms they share. A statement that says "opcode `op` is the
instruction and it does so and so" covers the rule's Encoding line, its effect, and everything it leaves unchanged. -/

namespace Sys2Proof.Machine

/-! ### What is left unchanged -/

/-- Every byte of memory reads as before. -/
def KeepsMemory (s t : State) : Prop := ∀ b : Addr, t.read b = s.read b

/-- One byte is stored; every other byte of memory reads as before. -/
def StoresByte (s t : State) (a : Addr) (v : Byte) : Prop :=
  t.read a = v ∧ ∀ b : Addr, b ≠ a → t.read b = s.read b

/-- X, Y and SP are as before. -/
def KeepsIndexAndStack (s t : State) : Prop := t.x = s.x ∧ t.y = s.y ∧ t.sp = s.sp

/-- A, X, Y, SP and PC are as before. -/
def KeepsRegisters (s t : State) : Prop := t.a = s.a ∧ KeepsIndexAndStack s t ∧ t.pc = s.pc

/-- No register but A, and no memory byte, changes. -/
def WritesOnlyA (s t : State) : Prop := KeepsIndexAndStack s t ∧ t.pc = s.pc ∧ KeepsMemory s t

/-- No register but X, and no memory byte, changes. -/
def WritesOnlyX (s t : State) : Prop :=
  t.a = s.a ∧ t.y = s.y ∧ t.sp = s.sp ∧ t.pc = s.pc ∧ KeepsMemory s t

/-- No register but Y, and no memory byte, changes. -/
def WritesOnlyY (s t : State) : Prop :=
  t.a = s.a ∧ t.x = s.x ∧ t.sp = s.sp ∧ t.pc = s.pc ∧ KeepsMemory s t

/-- No register but SP and no flag changes; memory is the statement's own affair. -/
def WritesOnlySp (s t : State) : Prop :=
  t.a = s.a ∧ t.x = s.x ∧ t.y = s.y ∧ t.pc = s.pc ∧ t.flags = s.flags

/-- The flags V, C, D, I, B and U are as before. -/
def KeepsAllButZN (s t : State) : Prop :=
  t.flags.v = s.flags.v ∧ t.flags.c = s.flags.c ∧ t.flags.d = s.flags.d ∧ t.flags.i = s.flags.i ∧
    t.flags.b = s.flags.b ∧ t.flags.u = s.flags.u

/-- The flags D, I, B and U are as before. -/
def KeepsDIB (s t : State) : Prop :=
  t.flags.d = s.flags.d ∧ t.flags.i = s.flags.i ∧ t.flags.b = s.flags.b ∧ t.flags.u = s.flags.u

/-- Z and N from a result (R26): Z exactly when it is zero, N exactly when its bit 7 is 1. -/
def ShowsZN (t : State) (r : Byte) : Prop := (t.flags.z = true ↔ r = 0) ∧ (t.flags.n = true ↔ 128 ≤ r.toNat)

/-! ### An opcode, the instruction it stands for, and what that instruction does from every state -/

/-- The one-byte encoding `op` is the instruction `i`, and from every state `i` completes with `post`. -/
def RunsOne (op : Byte) (i : Instr) (post : State → State → Prop) : Prop :=
  (∀ rest, decode (op :: rest) = .ok (i, rest)) ∧ ∀ s, ∃ t, exec i s = .next t ∧ post s t

/-- The encoding `op b` is the instruction `mk b`, and from every state it completes with `post b`. -/
def RunsTwo (op : Byte) (mk : Byte → Instr) (post : Byte → State → State → Prop) : Prop :=
  ∀ b, (∀ rest, decode (op :: b :: rest) = .ok (mk b, rest)) ∧ ∀ s, ∃ t, exec (mk b) s = .next t ∧ post b s t

/-- The encoding `op lo hi` is the instruction `mk w` with `w = (hi << 8) | lo`, and from every state it completes with
`post w`. -/
def RunsThree (op : Byte) (mk : Addr → Instr) (post : Addr → State → State → Prop) : Prop :=
  (∀ (lo hi : Byte) (rest : List Byte), decode (op :: lo :: hi :: rest) = .ok (mk (hi ++ lo), rest)) ∧
    ∀ w s, ∃ t, exec (mk w) s = .next t ∧ post w s t

/-! ### Read forms: `post m s t` with m the operand byte of the mode (R66 to R71, R73, R74, R78) -/

def ReadsZp (op : Byte) (mk : Byte → Instr) (post : Byte → State → State → Prop) : Prop :=
  RunsTwo op mk fun b s t => post (s.read (s.ea (.zp b))) s t

def ReadsZpx (op : Byte) (mk : Byte → Instr) (post : Byte → State → State → Prop) : Prop :=
  RunsTwo op mk fun b s t => post (s.read (s.ea (.zpx b))) s t

def ReadsZpy (op : Byte) (mk : Byte → Instr) (post : Byte → State → State → Prop) : Prop :=
  RunsTwo op mk fun b s t => post (s.read (s.ea (.zpy b))) s t

def ReadsIzx (op : Byte) (mk : Byte → Instr) (post : Byte → State → State → Prop) : Prop :=
  RunsTwo op mk fun b s t => post (s.read (s.ea (.izx b))) s t

def ReadsIzy (op : Byte) (mk : Byte → Instr) (post : Byte → State → State → Prop) : Prop :=
  RunsTwo op mk fun b s t => post (s.read (s.ea (.izy b))) s t

def ReadsAbs (op : Byte) (mk : Addr → Instr) (post : Byte → State → State → Prop) : Prop :=
  RunsThree op mk fun w s t => post (s.read (s.ea (.abs w))) s t

def ReadsAbsx (op : Byte) (mk : Addr → Instr) (post : Byte → State → State → Prop) : Prop :=
  RunsThree op mk fun w s t => post (s.read (s.ea (.absx w))) s t

def ReadsAbsy (op : Byte) (mk : Addr → Instr) (post : Byte → State → State → Prop) : Prop :=
  RunsThree op mk fun w s t => post (s.read (s.ea (.absy w))) s t

def ReadsImm (op : Byte) (mk : Byte → Instr) (post : Byte → State → State → Prop) : Prop := RunsTwo op mk post

/-! ### Address forms: `post ea s t` with ea the effective address of the mode -/

def AtZp (op : Byte) (mk : Byte → Instr) (post : Addr → State → State → Prop) : Prop :=
  RunsTwo op mk fun b s t => post (s.ea (.zp b)) s t

def AtZpx (op : Byte) (mk : Byte → Instr) (post : Addr → State → State → Prop) : Prop :=
  RunsTwo op mk fun b s t => post (s.ea (.zpx b)) s t

def AtZpy (op : Byte) (mk : Byte → Instr) (post : Addr → State → State → Prop) : Prop :=
  RunsTwo op mk fun b s t => post (s.ea (.zpy b)) s t

def AtIzx (op : Byte) (mk : Byte → Instr) (post : Addr → State → State → Prop) : Prop :=
  RunsTwo op mk fun b s t => post (s.ea (.izx b)) s t

def AtIzy (op : Byte) (mk : Byte → Instr) (post : Addr → State → State → Prop) : Prop :=
  RunsTwo op mk fun b s t => post (s.ea (.izy b)) s t

def AtAbs (op : Byte) (mk : Addr → Instr) (post : Addr → State → State → Prop) : Prop :=
  RunsThree op mk fun w s t => post (s.ea (.abs w)) s t

def AtAbsx (op : Byte) (mk : Addr → Instr) (post : Addr → State → State → Prop) : Prop :=
  RunsThree op mk fun w s t => post (s.ea (.absx w)) s t

def AtAbsy (op : Byte) (mk : Addr → Instr) (post : Addr → State → State → Prop) : Prop :=
  RunsThree op mk fun w s t => post (s.ea (.absy w)) s t

/-! ### The rules' effects -/

/-- A <- r; SetZN(r). -/
def GivesA (r : Byte) (s t : State) : Prop := t.a = r ∧ ShowsZN t r ∧ KeepsAllButZN s t ∧ WritesOnlyA s t

/-- X <- r; SetZN(r). -/
def GivesX (r : Byte) (s t : State) : Prop := t.x = r ∧ ShowsZN t r ∧ KeepsAllButZN s t ∧ WritesOnlyX s t

/-- Y <- r; SetZN(r). -/
def GivesY (r : Byte) (s t : State) : Prop := t.y = r ∧ ShowsZN t r ∧ KeepsAllButZN s t ∧ WritesOnlyY s t

/-- ORA (R100). -/
def OraEffect (m : Byte) (s t : State) : Prop := GivesA (s.a ||| m) s t

/-- AND (R101). -/
def AndEffect (m : Byte) (s t : State) : Prop := GivesA (s.a &&& m) s t

/-- EOR (R102). -/
def EorEffect (m : Byte) (s t : State) : Prop := GivesA (s.a ^^^ m) s t

/-- BIT (R103): N and V are bits 7 and 6 of the operand, Z whether the AND is zero. -/
def BitEffect (m : Byte) (s t : State) : Prop :=
  (t.flags.n = true ↔ 128 ≤ m.toNat) ∧ (t.flags.v = true ↔ 64 ≤ m.toNat % 128) ∧
    (t.flags.z = true ↔ s.a &&& m = 0) ∧ t.flags.c = s.flags.c ∧ KeepsDIB s t ∧ KeepsRegisters s t ∧ KeepsMemory s t

/-- What a shift or rotate makes of a value and the old carry: the result as a number, and the carry out. -/
abbrev ShiftRule := Nat → Nat → Nat × Prop

/-- ASL (R111): the carry is the old bit 7. -/
def aslRule : ShiftRule := fun v _ => (2 * v % 256, 128 ≤ v)

/-- LSR (R112): the carry is the old bit 0. -/
def lsrRule : ShiftRule := fun v _ => (v / 2, v % 2 = 1)

/-- ROL (R113): the old carry enters at bit 0. -/
def rolRule : ShiftRule := fun v cin => ((2 * v + cin) % 256, 128 ≤ v)

/-- ROR (R114): the old carry enters at bit 7. -/
def rorRule : ShiftRule := fun v cin => (v / 2 + 128 * cin, v % 2 = 1)

/-- The accumulator form of a shift or rotate (R110). -/
def ShiftsA (rule : ShiftRule) (s t : State) : Prop :=
  t.a.toNat = (rule s.a.toNat s.flags.c.toNat).1 ∧ (t.flags.c = true ↔ (rule s.a.toNat s.flags.c.toNat).2) ∧
    ShowsZN t t.a ∧ t.flags.v = s.flags.v ∧ KeepsDIB s t ∧ WritesOnlyA s t

/-- The memory form of a shift or rotate (R110): the byte at EA is read, and the result is stored to the same EA. -/
def ShiftsAt (rule : ShiftRule) (ea : Addr) (s t : State) : Prop :=
  ∃ r : Byte, r.toNat = (rule (s.read ea).toNat s.flags.c.toNat).1 ∧
    (t.flags.c = true ↔ (rule (s.read ea).toNat s.flags.c.toNat).2) ∧
    ShowsZN t r ∧ t.flags.v = s.flags.v ∧ KeepsDIB s t ∧ KeepsRegisters s t ∧ StoresByte s t ea r

/-- ADC (R121): A + m + C on integers, narrowed to 8 bits. -/
def AdcEffect (m : Byte) (s t : State) : Prop :=
  t.a.toNat = (s.a.toNat + m.toNat + s.flags.c.toNat) % 256 ∧
    (t.flags.c = true ↔ 255 < s.a.toNat + m.toNat + s.flags.c.toNat) ∧
    (t.flags.v = true ↔ s.a.getLsbD 7 = m.getLsbD 7 ∧ t.a.getLsbD 7 ≠ s.a.getLsbD 7) ∧
    ShowsZN t t.a ∧ KeepsDIB s t ∧ WritesOnlyA s t

/-- SBC (R122): A − m − (1 − C) on integers, narrowed to 8 bits. -/
def SbcEffect (m : Byte) (s t : State) : Prop :=
  (t.a.toNat : Int) = ((s.a.toNat : Int) - m.toNat - (1 - s.flags.c.toNat)) % 256 ∧
    (t.flags.c = true ↔ 0 ≤ (s.a.toNat : Int) - m.toNat - (1 - s.flags.c.toNat)) ∧
    (t.flags.v = true ↔ s.a.getLsbD 7 ≠ m.getLsbD 7 ∧ t.a.getLsbD 7 ≠ s.a.getLsbD 7) ∧
    ShowsZN t t.a ∧ KeepsDIB s t ∧ WritesOnlyA s t

/-- `Compare(reg, m)` (R130): C when reg ≥ m unsigned, Z when equal, N bit 7 of the difference mod 2^8. -/
def CompareEffect (reg : State → Byte) (m : Byte) (s t : State) : Prop :=
  (t.flags.c = true ↔ m.toNat ≤ (reg s).toNat) ∧ (t.flags.z = true ↔ reg s = m) ∧
    (t.flags.n = true ↔ 128 ≤ ((reg s).toNat + 256 - m.toNat) % 256) ∧
    t.flags.v = s.flags.v ∧ KeepsDIB s t ∧ KeepsRegisters s t ∧ KeepsMemory s t

/-- INC and DEC (R140, R141): the byte at EA changes by `d` mod 2^8. -/
def AdjustsAt (d : Nat) (ea : Addr) (s t : State) : Prop :=
  ∃ r : Byte, r.toNat = ((s.read ea).toNat + d) % 256 ∧ ShowsZN t r ∧ KeepsAllButZN s t ∧ KeepsRegisters s t ∧
    StoresByte s t ea r

/-- A flag instruction: the flags are those of `f`, and nothing else changes. -/
def GivesFlags (f : Flags → Flags) (s t : State) : Prop :=
  t.flags = f s.flags ∧ KeepsRegisters s t ∧ KeepsMemory s t

/-- A branch (R160): PC is the target when the condition holds, else the next instruction; nothing else changes. -/
def BranchEffect (cond : Flags → Prop) (off : Byte) (s t : State) : Prop :=
  (cond s.flags → (t.pc.toNat : Int) = ((s.pc.toNat : Int) + off.toInt) % 65536) ∧ (¬ cond s.flags → t.pc = s.pc) ∧
    t.flags = s.flags ∧ t.a = s.a ∧ KeepsIndexAndStack s t ∧ KeepsMemory s t

/-- A store (R183 to R185): one byte, no register, no flag. -/
def StoreEffect (v : State → Byte) (ea : Addr) (s t : State) : Prop :=
  StoresByte s t ea (v s) ∧ KeepsRegisters s t ∧ t.flags = s.flags

/-- `Push(v)` (R48): v is written at 0x0100 + SP, SP decreases by 1 mod 2^8, and nothing else changes. -/
def Pushes (v : Byte) (s t : State) : Prop :=
  StoresByte s t (BitVec.ofNat 16 (256 + s.sp.toNat)) v ∧ t.sp.toNat = (s.sp.toNat + 255) % 256 ∧ WritesOnlySp s t

/-- The byte a `Pull()` in `s` returns (R49): the one at 0x0100 + (SP + 1 mod 2^8). -/
def pulledByte (s : State) : Byte := s.read (BitVec.ofNat 16 (256 + (s.sp.toNat + 1) % 256))

/-- A jump: PC is the target, and nothing else changes. -/
def JumpEffect (target : Addr) (s t : State) : Prop :=
  t.pc = target ∧ t.flags = s.flags ∧ t.a = s.a ∧ KeepsIndexAndStack s t ∧ KeepsMemory s t

/-! ### Opcodes (R83) -/

/-- The 105 undefined opcode values, as R83 lists them. -/
def undefinedOpcodes : List Byte :=
  [0x02, 0x03, 0x04, 0x07, 0x0B, 0x0C, 0x0F, 0x12, 0x13, 0x14, 0x17, 0x1A, 0x1B, 0x1C, 0x1F] ++
  [0x22, 0x23, 0x27, 0x2B, 0x2F, 0x32, 0x33, 0x34, 0x37, 0x3A, 0x3B, 0x3C, 0x3F, 0x42, 0x43] ++
  [0x44, 0x47, 0x4B, 0x4F, 0x52, 0x53, 0x54, 0x57, 0x5A, 0x5B, 0x5C, 0x5F, 0x62, 0x63, 0x64] ++
  [0x67, 0x6B, 0x6F, 0x72, 0x73, 0x74, 0x77, 0x7A, 0x7B, 0x7C, 0x7F, 0x80, 0x82, 0x83, 0x87] ++
  [0x89, 0x8B, 0x8F, 0x92, 0x93, 0x97, 0x9B, 0x9C, 0x9E, 0x9F, 0xA3, 0xA7, 0xAB, 0xAF, 0xB2] ++
  [0xB3, 0xB7, 0xBB, 0xBF, 0xC2, 0xC3, 0xC7, 0xCB, 0xCF, 0xD2, 0xD3, 0xD4, 0xD7, 0xDA, 0xDB] ++
  [0xDC, 0xDF, 0xE2, 0xE3, 0xE7, 0xEB, 0xEF, 0xF2, 0xF3, 0xF4, 0xF7, 0xFA, 0xFB, 0xFC, 0xFF]

/-- The three bytes at PC and after it, at addresses mod 2^16 (R62). -/
def bytesAtPc (s : State) : List Byte :=
  [s.read s.pc, s.read (BitVec.ofNat 16 (s.pc.toNat + 1)), s.read (BitVec.ofNat 16 (s.pc.toNat + 2))]

/-- The state with other values of the flags B, D and I. -/
def withInertFlags (s : State) (b d i : Bool) : State := s.withFlags (((s.flags.setB b).setD d).setI i)

/-- The registers and flags of two states agree. -/
def SameRegisters (s t : State) : Prop :=
  t.a = s.a ∧ t.x = s.x ∧ t.y = s.y ∧ t.sp = s.sp ∧ t.pc = s.pc ∧ t.flags = s.flags

end Sys2Proof.Machine

open Sys2Proof Sys2Proof.Machine

/-- Words written out bit by bit from the opcode map, one or more per length, decode to the instructions they stand for: NOP, ASL A, LDA #, BNE, JSR, JMP indirect and STA absolute,X. -/
def Obligations.DecodesWordsWrittenFromTheTable : Prop :=
  decode [0b11101010] = .ok (.nop, []) ∧ decode [0b00001010] = .ok (.aslAcc, []) ∧
  decode [0b10101001, 0x42] = .ok (.ldaImm 0x42, []) ∧ decode [0b11010000, 0xFE] = .ok (.bne 0xFE, []) ∧
  decode [0b00100000, 0xCD, 0xAB] = .ok (.jsr 0xABCD, []) ∧ decode [0b01101100, 0xFF, 0x02] = .ok (.jmpInd 0x02FF, []) ∧
  decode [0b10011101, 0x00, 0x02] = .ok (.staAbsx 0x0200, [])

/-- For every instruction, with its operand at every value, decoding its encoding followed by any bytes answers that instruction and exactly those bytes. The encoder is written from the rules' Encoding lines and the decoder from the map of R80, so the two tables of the spec agree. -/
def Obligations.DecodeOfEncodeIsTheInstruction : Prop :=
  ∀ (i : Instr) (rest : List Byte), decode (encode i ++ rest) = .ok (i, rest)

/-- Whenever a list of bytes decodes to an instruction and a rest, the list is the encoding of that instruction followed by that rest. -/
def Obligations.EncodeOfDecodeIsTheBytes : Prop :=
  ∀ (bytes : List Byte) (i : Instr) (rest : List Byte), decode bytes = .ok (i, rest) → encode i ++ rest = bytes

/-- An opcode value of the list of R83 is rejected as undefined, whatever follows; every other opcode value decodes with every operand byte pair. The list holds 105 values, none twice. -/
def Obligations.DecodingIsTotal : Prop :=
  undefinedOpcodes.length = 105 ∧ undefinedOpcodes.Nodup ∧
  ∀ (op b1 b2 : Byte) (rest : List Byte),
    (op ∈ undefinedOpcodes → decode (op :: rest) = .error (.invalidOpcode op)) ∧
    (op ∉ undefinedOpcodes → ∃ i rest', decode (op :: b1 :: b2 :: rest) = .ok (i, rest'))

/-- The thirteen modes have lengths 1, 2 and 3 as the table of R61 gives them, and a decode consumes exactly as many bytes as the mode of the instruction it answers. -/
def Obligations.LengthIsOfTheModeAlone : Prop :=
  [Mode.imp, .acc].map Mode.length = [1, 1] ∧
  [Mode.imm, .zp, .zpx, .zpy, .izx, .izy, .rel].map Mode.length = [2, 2, 2, 2, 2, 2, 2] ∧
  [Mode.abs, .absx, .absy, .ind].map Mode.length = [3, 3, 3, 3] ∧
  ∀ (bytes : List Byte) (i : Instr) (rest : List Byte),
    decode bytes = .ok (i, rest) → bytes.length = i.mode.length + rest.length

/-- When the bytes at PC and the two addresses after it (mod 2^16) decode to an instruction, the step is that instruction's meaning in the state with PC advanced by its length mod 2^16 (for BRK and RTI, in the state itself), and a step that completes returns the opcode and the address it was fetched from. When they do not decode, the step returns InvalidOpcode with the byte and its address, and the state is as before. -/
def Obligations.StepRunsTheDecodedInstruction : Prop :=
  ∀ s : State,
    (∀ (i : Instr) (rest : List Byte), decode (bytesAtPc s) = .ok (i, rest) →
      step s = exec i (if i = .brk ∨ i = .rti then s else s.withPc (BitVec.ofNat 16 (s.pc.toNat + i.mode.length)))) ∧
    (∀ e : DecodeError, decode (bytesAtPc s) = .error e →
      hostStep s = (.error (.invalidOpcode (s.read s.pc) s.pc), s)) ∧
    (∀ t : State, step s = .next t → hostStep s = (.ok { opcode := s.read s.pc, pc := s.pc }, t))

/-- Where the byte at PC is one of the 105 values of R83, the step returns InvalidOpcode with the byte and its address, and the state afterwards is the state before. That the opcode read is the step's only access is said of the access list computed beside the step, which is the model's own (log 12, DESIGN CHOICE). -/
def Obligations.UndefinedOpcodeReturnsInvalidOpcode : Prop :=
  ∀ s : State, s.read s.pc ∈ undefinedOpcodes →
    step s = .fault (.invalidOpcode (s.read s.pc) s.pc) ∧
    hostStep s = (.error (.invalidOpcode (s.read s.pc) s.pc), s) ∧ s.stepAccesses = [.read s.pc]

/-- The meanings of BRK (0x00) and RTI (0x40) stop with UnimplementedControlFlow and the opcode and PC, in every state. A step that meets one of the two opcodes returns that error with the address of the opcode and leaves the state as it was. That it performs only the opcode read is said of the access list computed beside the step, which is the model's own (log 12, DESIGN CHOICE). -/
def Obligations.BrkAndRtiReturnUnimplementedControlFlow : Prop :=
  (∀ rest, decode (0x00 :: rest) = .ok (.brk, rest)) ∧ (∀ rest, decode (0x40 :: rest) = .ok (.rti, rest)) ∧
  ∀ s : State,
    exec .brk s = .fault (.unimplementedControlFlow 0x00 s.pc) ∧
    exec .rti s = .fault (.unimplementedControlFlow 0x40 s.pc) ∧
    (s.read s.pc = 0x00 →
      hostStep s = (.error (.unimplementedControlFlow 0x00 s.pc), s) ∧ s.stepAccesses = [.read s.pc]) ∧
    (s.read s.pc = 0x40 →
      hostStep s = (.error (.unimplementedControlFlow 0x40 s.pc), s) ∧ s.stepAccesses = [.read s.pc])

/-- From every state the step completes if and only if the byte at PC is a documented opcode other than BRK and RTI: no memory access, arithmetic, stack access or privilege can stop it. No step is refused, and a step that stops returns one of the two errors of R232, recording the opcode and PC. -/
def Obligations.StepCompletesUnlessTheOpcodeIsAnError : Prop :=
  ∀ s : State,
    (Completes s ↔ s.read s.pc ∉ undefinedOpcodes ∧ s.read s.pc ≠ 0x00 ∧ s.read s.pc ≠ 0x40) ∧
    (∀ e : Fault, step s = .fault e →
      e = .invalidOpcode (s.read s.pc) s.pc ∨ e = .unimplementedControlFlow (s.read s.pc) s.pc) ∧
    (∀ r : Refusal, step s ≠ .refused r)

/-- Whenever a call of step returns an error, the state afterwards is the state before, with PC at the faulting opcode, and calling step again returns the same error. -/
def Obligations.ErrorLeavesTheStateAndRepeats : Prop :=
  ∀ (s : State) (e : Fault) (t : State), hostStep s = (.error e, t) → t = s ∧ hostStep t = (.error e, t)

/-- For every image and every choice of the open registers and flags: each memory byte is the image's (that an image may be a list of another length than 65536, with 0x00 past its end, is the model's choice, log 5, DESIGN CHOICE); SP is 0xFF; PC is the little-endian word at 0xFFFC of that memory; A, X, Y and the seven flags are the given ones; U reads 1. -/
def Obligations.ConstructionGivesTheStatedState : Prop :=
  ∀ (image : List Byte) (r : Config.ResetRegs),
    let s := State.construct image r
    (∀ a : Addr, s.read a = image.getD a.toNat 0x00) ∧ s.sp = 0xFF ∧
    s.pc.toNat = (s.read 0xFFFD).toNat * 256 + (s.read 0xFFFC).toNat ∧
    s.a = r.a ∧ s.x = r.x ∧ s.y = r.y ∧ s.flags.n = r.n ∧ s.flags.v = r.v ∧ s.flags.b = r.b ∧ s.flags.d = r.d ∧
    s.flags.i = r.i ∧ s.flags.z = r.z ∧ s.flags.c = r.c ∧ s.flags.uValue = true

/-- State.reset reads 0x00 at every address, has SP = 0xFF and PC = 0x0000 (R263: with a blank buffer PC = 0x0000), and its first step meets a BRK there. Nothing is said of A, X, Y and the seven flags, whose reset values are the model's own choice (logs 1 and 2). -/
def Obligations.ResetIsABlankBuffer : Prop :=
  (∀ a : Addr, State.reset.read a = 0x00) ∧ State.reset.sp = 0xFF ∧ State.reset.pc = 0x0000 ∧
    step State.reset = .fault (.unimplementedControlFlow 0x00 0x0000)

/-- For every image and every choice of the open registers and flags the constructed state meets the invariant: memory is in its canonical form (the model's representation, log 4). State.reset is one such state. -/
def Obligations.ConstructionHoldsTheInvariant : Prop :=
  (∀ (image : List Byte) (r : Config.ResetRegs), (State.construct image r).Inv) ∧ State.reset.Inv

/-- From every state whose memory is in canonical form (rising addresses below 65536, no blank byte listed; the model's representation, log 4), a step that completes answers a state whose memory is again in canonical form. -/
def Obligations.EveryStepKeepsTheInvariant : Prop :=
  ∀ s t : State, s.Inv → step s = .next t → t.Inv

/-- Every state reached from a construction by steps that complete and by host writes between steps, in any order and number, meets the invariant. The invariant is the model's representation of memory (log 4), and what a host may do between steps is its reading of R240 (log 16, DEDUCED). -/
def Obligations.EveryReachableStateMeetsTheInvariant : Prop :=
  ∀ s : State, Reachable s → s.Inv

/-- If two memories are in canonical form and every address reads the same in both, they are equal: states can be compared as data (log 4). -/
def Obligations.CanonicalMemoriesAreEqualData : Prop :=
  ∀ m m' : Memory, m.wf = true → m'.wf = true → (∀ a : Addr, m.read a = m'.read a) → m = m'

/-- After MemWrite every address reads as before but the one written, which reads the value; no register or flag changes. MemRead is a function of the state and changes none of it. -/
def Obligations.WriteStoresOneByte : Prop :=
  ∀ (s : State) (a : Addr) (v : Byte),
    (∀ b : Addr, (s.write a v).read b = if b = a then v else s.read b) ∧ SameRegisters s (s.write a v)

/-- MemRead(addr, 2) is the byte at addr plus 256 times the byte at (addr + 1) mod 2^16; at 0xFFFF the high byte is read from 0x0000. -/
def Obligations.WordReadIsLittleEndianAndWraps : Prop :=
  ∀ (s : State) (a : Addr),
    (s.readWord a).toNat = (s.read a).toNat + 256 * (s.read (BitVec.ofNat 16 ((a.toNat + 1) % 65536))).toNat

/-- Push(v) stores v at 0x0100 + SP and lowers SP by 1 mod 2^8; Pull() raises SP by 1 mod 2^8 and returns the byte at 0x0100 + the new SP. Neither changes anything else, and both wrap at the ends of page 1. -/
def Obligations.PushAndPullUsePageOne : Prop :=
  ∀ (s : State) (v : Byte), Pushes v s (s.push v) ∧
    s.pullByte = pulledByte s ∧ s.pulled.sp.toNat = (s.sp.toNat + 1) % 256 ∧ WritesOnlySp s s.pulled ∧
    KeepsMemory s s.pulled

/-- EA(ZP) is the operand byte; EA(ZPX) and EA(ZPY) are the operand byte plus X or Y mod 2^8, so that the address never leaves 0x0000 to 0x00FF. ZPY is a mode of LDX and STX only. -/
def Obligations.ZeroPageAddressesStayInPageZero : Prop :=
  (∀ (s : State) (b : Byte),
    (s.ea (.zp b)).toNat = b.toNat ∧ (s.ea (.zpx b)).toNat = (b.toNat + s.x.toNat) % 256 ∧
    (s.ea (.zpy b)).toNat = (b.toNat + s.y.toNat) % 256) ∧
  ∀ i : Instr, i.mode = .zpy → i.mnemonic = .ldx ∨ i.mnemonic = .stx

/-- EA(ABS) is the 16-bit operand; EA(ABSX) and EA(ABSY) add X or Y to it mod 2^16, the carry propagating into the high byte. -/
def Obligations.AbsoluteAddressesAreSixteenBitSums : Prop :=
  ∀ (s : State) (lo hi : Byte),
    (s.ea (.abs (hi ++ lo))).toNat = hi.toNat * 256 + lo.toNat ∧
    (s.ea (.absx (hi ++ lo))).toNat = (hi.toNat * 256 + lo.toNat + s.x.toNat) % 65536 ∧
    (s.ea (.absy (hi ++ lo))).toNat = (hi.toNat * 256 + lo.toNat + s.y.toNat) % 65536

/-- EA(IZX) is the word at the zero-page pointer (b1 + X) mod 2^8, its high byte read from the next zero-page address mod 2^8; EA(IZY) is the word at the pointer b1, read in the same way, plus Y mod 2^16. -/
def Obligations.ZeroPagePointersWrapInPageZero : Prop :=
  ∀ (s : State) (b : Byte),
    let word := fun p : Nat =>
      (s.read (BitVec.ofNat 16 (p % 256))).toNat + 256 * (s.read (BitVec.ofNat 16 ((p + 1) % 256))).toNat
    (s.ea (.izx b)).toNat = word ((b.toNat + s.x.toNat) % 256) ∧
    (s.ea (.izy b)).toNat = (word b.toNat + s.y.toNat) % 65536

/-- For each value of JmpIndirectPageWrap the target's low byte is at the pointer and its high byte at the address R72 gives: in the pointer's own page when true, at the pointer plus 1 mod 2^16 when false. The two agree unless the pointer's low byte is 0xFF. EA(IND) is the one of the machine's own parameter, IND is a mode of JMP only, and the parameter's value is not assumed. -/
def Obligations.IndirectJumpReadsThePointerUnderBothParameterValues : Prop :=
  (∀ (s : State) (ptr : Addr),
    s.eaIndirectWith true ptr = s.read ((ptr &&& 0xFF00) ||| ((ptr + 1) &&& 0x00FF)) ++ s.read ptr ∧
    s.eaIndirectWith false ptr = s.read (BitVec.ofNat 16 (ptr.toNat + 1)) ++ s.read ptr ∧
    (ptr.toNat % 256 ≠ 255 → s.eaIndirectWith true ptr = s.eaIndirectWith false ptr) ∧
    s.eaIndirect ptr = s.eaIndirectWith Config.jmpIndirectPageWrap ptr) ∧
  ∀ i : Instr, i.mode = .ind → i.mnemonic = .jmp

/-- Target(REL) is the PC already advanced past the branch plus the offset read as a number from −128 to 127, mod 2^16. REL is a mode of the eight branches only. -/
def Obligations.BranchTargetIsPcPlusSignedOffset : Prop :=
  (∀ (s : State) (off : Byte),
    ((s.relTarget off).toNat : Int) = ((s.pc.toNat : Int) + off.toInt) % 65536 ∧ -128 ≤ off.toInt ∧ off.toInt ≤ 127) ∧
  ∀ i : Instr, i.mode = .rel → i.mnemonic ∈ [Mnemonic.bpl, .bmi, .bvc, .bvs, .bcc, .bcs, .bne, .beq]

/-- Each opcode of ORA, AND and EOR is its form, and from every state it completes with A combined with the operand byte of its mode, Z and N from the new A, and every other flag, register and memory byte as before. -/
def Obligations.LogicInstructionsAccumulate : Prop :=
  ReadsImm 0x09 .oraImm OraEffect ∧
  ReadsZp 0x05 .oraZp OraEffect ∧
  ReadsZpx 0x15 .oraZpx OraEffect ∧
  ReadsAbs 0x0D .oraAbs OraEffect ∧
  ReadsAbsx 0x1D .oraAbsx OraEffect ∧
  ReadsAbsy 0x19 .oraAbsy OraEffect ∧
  ReadsIzx 0x01 .oraIzx OraEffect ∧
  ReadsIzy 0x11 .oraIzy OraEffect ∧
  ReadsImm 0x29 .andImm AndEffect ∧
  ReadsZp 0x25 .andZp AndEffect ∧
  ReadsZpx 0x35 .andZpx AndEffect ∧
  ReadsAbs 0x2D .andAbs AndEffect ∧
  ReadsAbsx 0x3D .andAbsx AndEffect ∧
  ReadsAbsy 0x39 .andAbsy AndEffect ∧
  ReadsIzx 0x21 .andIzx AndEffect ∧
  ReadsIzy 0x31 .andIzy AndEffect ∧
  ReadsImm 0x49 .eorImm EorEffect ∧
  ReadsZp 0x45 .eorZp EorEffect ∧
  ReadsZpx 0x55 .eorZpx EorEffect ∧
  ReadsAbs 0x4D .eorAbs EorEffect ∧
  ReadsAbsx 0x5D .eorAbsx EorEffect ∧
  ReadsAbsy 0x59 .eorAbsy EorEffect ∧
  ReadsIzx 0x41 .eorIzx EorEffect ∧
  ReadsIzy 0x51 .eorIzy EorEffect

/-- Both opcodes of BIT are its forms, and from every state it completes with N and V the operand's bits 7 and 6, Z whether A AND the operand is zero, and everything else, A included, as before. -/
def Obligations.BitTestsMemoryAgainstA : Prop :=
  ReadsZp 0x24 .bitZp BitEffect ∧
  ReadsAbs 0x2C .bitAbs BitEffect

/-- Each opcode of ASL and LSR is its form, and from every state it completes: A or the byte at EA becomes twice it mod 2^8 (ASL) or half of it (LSR), C is the bit shifted out, Z and N come from the result, and everything else is as before. -/
def Obligations.ShiftsMoveOneBitIntoCarry : Prop :=
  RunsOne 0x0A .aslAcc (ShiftsA aslRule) ∧
  AtZp 0x06 .aslZp (ShiftsAt aslRule) ∧
  AtZpx 0x16 .aslZpx (ShiftsAt aslRule) ∧
  AtAbs 0x0E .aslAbs (ShiftsAt aslRule) ∧
  AtAbsx 0x1E .aslAbsx (ShiftsAt aslRule) ∧
  RunsOne 0x4A .lsrAcc (ShiftsA lsrRule) ∧
  AtZp 0x46 .lsrZp (ShiftsAt lsrRule) ∧
  AtZpx 0x56 .lsrZpx (ShiftsAt lsrRule) ∧
  AtAbs 0x4E .lsrAbs (ShiftsAt lsrRule) ∧
  AtAbsx 0x5E .lsrAbsx (ShiftsAt lsrRule)

/-- Each opcode of ROL and ROR is its form, and from every state it completes: the old carry enters at the vacated bit, C is the bit shifted out, Z and N come from the result, and everything else is as before. (That the rotates use the old carry is the spec's general-knowledge item GK7.) -/
def Obligations.RotatesGoThroughCarry : Prop :=
  RunsOne 0x2A .rolAcc (ShiftsA rolRule) ∧
  AtZp 0x26 .rolZp (ShiftsAt rolRule) ∧
  AtZpx 0x36 .rolZpx (ShiftsAt rolRule) ∧
  AtAbs 0x2E .rolAbs (ShiftsAt rolRule) ∧
  AtAbsx 0x3E .rolAbsx (ShiftsAt rolRule) ∧
  RunsOne 0x6A .rorAcc (ShiftsA rorRule) ∧
  AtZp 0x66 .rorZp (ShiftsAt rorRule) ∧
  AtZpx 0x76 .rorZpx (ShiftsAt rorRule) ∧
  AtAbs 0x6E .rorAbs (ShiftsAt rorRule) ∧
  AtAbsx 0x7E .rorAbsx (ShiftsAt rorRule)

/-- R113: a 9-bit rotation (8 bits plus C) returns to the start after 9 ROLs. From every state, nine meanings of ROL A, each in the state the one before it answers, end with A and C as they were. -/
def Obligations.NineRotationsRestoreAAndCarry : Prop :=
  ∀ s : State, ∃ t1 t2 t3 t4 t5 t6 t7 t8 t9 : State,
    exec .rolAcc s = .next t1 ∧ exec .rolAcc t1 = .next t2 ∧ exec .rolAcc t2 = .next t3 ∧ exec .rolAcc t3 = .next t4 ∧
    exec .rolAcc t4 = .next t5 ∧ exec .rolAcc t5 = .next t6 ∧ exec .rolAcc t6 = .next t7 ∧ exec .rolAcc t7 = .next t8 ∧
    exec .rolAcc t8 = .next t9 ∧ t9.a = s.a ∧ t9.flags.c = s.flags.c

/-- Each of the eight opcodes of ADC is its form, and from every state it completes with A + m + C mod 2^8 in A, C the unsigned overflow, V set exactly when the operands share a sign bit and the result's differs, Z and N from the result, and everything else as before. -/
def Obligations.AdcAddsWithCarry : Prop :=
  ReadsImm 0x69 .adcImm AdcEffect ∧
  ReadsZp 0x65 .adcZp AdcEffect ∧
  ReadsZpx 0x75 .adcZpx AdcEffect ∧
  ReadsAbs 0x6D .adcAbs AdcEffect ∧
  ReadsAbsx 0x7D .adcAbsx AdcEffect ∧
  ReadsAbsy 0x79 .adcAbsy AdcEffect ∧
  ReadsIzx 0x61 .adcIzx AdcEffect ∧
  ReadsIzy 0x71 .adcIzy AdcEffect

/-- Each of the eight opcodes of SBC is its form, and from every state it completes with A − m − (1 − C) mod 2^8 in A, C when the integer difference is not negative, V set exactly when the operands' sign bits differ and the result's differs from A's, Z and N from the result, and everything else as before; and it is ADC of the operand's complement in every result and flag. -/
def Obligations.SbcSubtractsWithBorrow : Prop :=
  ReadsImm 0xE9 .sbcImm SbcEffect ∧
  ReadsZp 0xE5 .sbcZp SbcEffect ∧
  ReadsZpx 0xF5 .sbcZpx SbcEffect ∧
  ReadsAbs 0xED .sbcAbs SbcEffect ∧
  ReadsAbsx 0xFD .sbcAbsx SbcEffect ∧
  ReadsAbsy 0xF9 .sbcAbsy SbcEffect ∧
  ReadsIzx 0xE1 .sbcIzx SbcEffect ∧
  ReadsIzy 0xF1 .sbcIzy SbcEffect ∧
  ∀ (m : Byte) (s : State), exec (.sbcImm m) s = exec (.adcImm (m ^^^ 0xFF)) s

/-- For every A, operand and carry: after ADC, V is set exactly when the signed sum leaves −128 to 127; after SBC, exactly when the signed difference does. N is bit 7 of the result, every result is taken mod 2^8, and neither ever traps. -/
def Obligations.OverflowIsSignedRange : Prop :=
  ∀ (s : State) (m : Byte),
    (∃ t, exec (.adcImm m) s = .next t ∧ t.flags.n = t.a.getLsbD 7 ∧
      t.a = s.a + m + BitVec.ofNat 8 s.flags.c.toNat ∧
      (t.flags.v = true ↔ s.a.toInt + m.toInt + s.flags.c.toNat < -128 ∨ 127 < s.a.toInt + m.toInt + s.flags.c.toNat)) ∧
    (∃ t, exec (.sbcImm m) s = .next t ∧ t.flags.n = t.a.getLsbD 7 ∧
      t.a = s.a - m - BitVec.ofNat 8 (1 - s.flags.c.toNat) ∧
      (t.flags.v = true ↔
        s.a.toInt - m.toInt - (1 - s.flags.c.toNat) < -128 ∨ 127 < s.a.toInt - m.toInt - (1 - s.flags.c.toNat)))

/-- For every form of ADC and SBC and every state, setting D to either value first changes nothing of the outcome but D itself. -/
def Obligations.DecimalFlagDoesNotChangeArithmetic : Prop :=
  ∀ (i : Instr) (s : State) (d : Bool), i.mnemonic = .adc ∨ i.mnemonic = .sbc →
    ∃ t, exec i s = .next t ∧ exec i (s.withFlags (s.flags.setD d)) = .next (t.withFlags (t.flags.setD d))

/-- Each opcode of CMP, CPX and CPY is its form, and from every state it completes with C when the register is at least the operand as unsigned numbers, Z when they are equal, N bit 7 of the difference mod 2^8, and every register, memory byte and other flag as before. -/
def Obligations.ComparesSetCZNOnly : Prop :=
  ReadsImm 0xC9 .cmpImm (CompareEffect State.a) ∧
  ReadsZp 0xC5 .cmpZp (CompareEffect State.a) ∧
  ReadsZpx 0xD5 .cmpZpx (CompareEffect State.a) ∧
  ReadsAbs 0xCD .cmpAbs (CompareEffect State.a) ∧
  ReadsAbsx 0xDD .cmpAbsx (CompareEffect State.a) ∧
  ReadsAbsy 0xD9 .cmpAbsy (CompareEffect State.a) ∧
  ReadsIzx 0xC1 .cmpIzx (CompareEffect State.a) ∧
  ReadsIzy 0xD1 .cmpIzy (CompareEffect State.a) ∧
  ReadsImm 0xE0 .cpxImm (CompareEffect State.x) ∧
  ReadsZp 0xE4 .cpxZp (CompareEffect State.x) ∧
  ReadsAbs 0xEC .cpxAbs (CompareEffect State.x) ∧
  ReadsImm 0xC0 .cpyImm (CompareEffect State.y) ∧
  ReadsZp 0xC4 .cpyZp (CompareEffect State.y) ∧
  ReadsAbs 0xCC .cpyAbs (CompareEffect State.y)

/-- Each opcode of INC and DEC is its form, and from every state it completes with the byte at EA one more (INC) or one less (DEC) mod 2^8, Z and N from the new byte, and everything else, C and V included, as before. -/
def Obligations.IncAndDecAdjustMemory : Prop :=
  AtZp 0xE6 .incZp (AdjustsAt 1) ∧
  AtZpx 0xF6 .incZpx (AdjustsAt 1) ∧
  AtAbs 0xEE .incAbs (AdjustsAt 1) ∧
  AtAbsx 0xFE .incAbsx (AdjustsAt 1) ∧
  AtZp 0xC6 .decZp (AdjustsAt 255) ∧
  AtZpx 0xD6 .decZpx (AdjustsAt 255) ∧
  AtAbs 0xCE .decAbs (AdjustsAt 255) ∧
  AtAbsx 0xDE .decAbsx (AdjustsAt 255)

/-- Each opcode is its instruction, and from every state it completes with X or Y one more or one less mod 2^8, Z and N from the new value, and everything else as before. -/
def Obligations.IndexRegistersCountModTwoToTheEight : Prop :=
  RunsOne 0xE8 .inx (fun s t => GivesX t.x s t ∧ t.x.toNat = (s.x.toNat + 1) % 256) ∧
  RunsOne 0xC8 .iny (fun s t => GivesY t.y s t ∧ t.y.toNat = (s.y.toNat + 1) % 256) ∧
  RunsOne 0xCA .dex (fun s t => GivesX t.x s t ∧ t.x.toNat = (s.x.toNat + 255) % 256) ∧
  RunsOne 0x88 .dey (fun s t => GivesY t.y s t ∧ t.y.toNat = (s.y.toNat + 255) % 256)

/-- Each opcode is its instruction, and from every state it completes with its one flag cleared or set and every other flag, register and memory byte as before. -/
def Obligations.FlagInstructionsTouchOneFlag : Prop :=
  RunsOne 0x18 .clc (GivesFlags fun f => { f with c := false }) ∧
  RunsOne 0x38 .sec (GivesFlags fun f => { f with c := true }) ∧
  RunsOne 0x58 .cli (GivesFlags fun f => { f with i := false }) ∧
  RunsOne 0x78 .sei (GivesFlags fun f => { f with i := true }) ∧
  RunsOne 0xD8 .cld (GivesFlags fun f => { f with d := false }) ∧
  RunsOne 0xF8 .sed (GivesFlags fun f => { f with d := true }) ∧
  RunsOne 0xB8 .clv (GivesFlags fun f => { f with v := false })

/-- Each opcode is its branch, and from every state it completes: PC moves by the signed offset mod 2^16 if the flag it tests has the value its rule names, and stays at the next instruction otherwise; no flag, register or memory byte changes. -/
def Obligations.BranchesTestOneFlag : Prop :=
  RunsTwo 0x10 .bpl (BranchEffect fun f => f.n = false) ∧
  RunsTwo 0x30 .bmi (BranchEffect fun f => f.n = true) ∧
  RunsTwo 0x50 .bvc (BranchEffect fun f => f.v = false) ∧
  RunsTwo 0x70 .bvs (BranchEffect fun f => f.v = true) ∧
  RunsTwo 0x90 .bcc (BranchEffect fun f => f.c = false) ∧
  RunsTwo 0xB0 .bcs (BranchEffect fun f => f.c = true) ∧
  RunsTwo 0xD0 .bne (BranchEffect fun f => f.z = false) ∧
  RunsTwo 0xF0 .beq (BranchEffect fun f => f.z = true)

/-- Each opcode of LDA, LDX and LDY is its form, and from every state it completes with the operand byte of its mode in the register, Z and N from it, and everything else as before. -/
def Obligations.LoadsSetTheRegisterAndZN : Prop :=
  ReadsImm 0xA9 .ldaImm GivesA ∧
  ReadsZp 0xA5 .ldaZp GivesA ∧
  ReadsZpx 0xB5 .ldaZpx GivesA ∧
  ReadsAbs 0xAD .ldaAbs GivesA ∧
  ReadsAbsx 0xBD .ldaAbsx GivesA ∧
  ReadsAbsy 0xB9 .ldaAbsy GivesA ∧
  ReadsIzx 0xA1 .ldaIzx GivesA ∧
  ReadsIzy 0xB1 .ldaIzy GivesA ∧
  ReadsImm 0xA2 .ldxImm GivesX ∧
  ReadsZp 0xA6 .ldxZp GivesX ∧
  ReadsZpy 0xB6 .ldxZpy GivesX ∧
  ReadsAbs 0xAE .ldxAbs GivesX ∧
  ReadsAbsy 0xBE .ldxAbsy GivesX ∧
  ReadsImm 0xA0 .ldyImm GivesY ∧
  ReadsZp 0xA4 .ldyZp GivesY ∧
  ReadsZpx 0xB4 .ldyZpx GivesY ∧
  ReadsAbs 0xAC .ldyAbs GivesY ∧
  ReadsAbsx 0xBC .ldyAbsx GivesY

/-- Each opcode of STA, STX and STY is its form, and from every state it completes with the register's value at the effective address of its mode, every other memory byte, every register and every flag as before. -/
def Obligations.StoresWriteOneByteAtEa : Prop :=
  AtZp 0x85 .staZp (StoreEffect State.a) ∧
  AtZpx 0x95 .staZpx (StoreEffect State.a) ∧
  AtAbs 0x8D .staAbs (StoreEffect State.a) ∧
  AtAbsx 0x9D .staAbsx (StoreEffect State.a) ∧
  AtAbsy 0x99 .staAbsy (StoreEffect State.a) ∧
  AtIzx 0x81 .staIzx (StoreEffect State.a) ∧
  AtIzy 0x91 .staIzy (StoreEffect State.a) ∧
  AtZp 0x86 .stxZp (StoreEffect State.x) ∧
  AtZpy 0x96 .stxZpy (StoreEffect State.x) ∧
  AtAbs 0x8E .stxAbs (StoreEffect State.x) ∧
  AtZp 0x84 .styZp (StoreEffect State.y) ∧
  AtZpx 0x94 .styZpx (StoreEffect State.y) ∧
  AtAbs 0x8C .styAbs (StoreEffect State.y)

/-- Each opcode is its transfer, and from every state it completes with the source register's value in the destination, Z and N from it (TXS: no flag at all), and everything else as before. -/
def Obligations.TransfersCopyTheRegister : Prop :=
  RunsOne 0xAA .tax (fun s t => GivesX s.a s t) ∧
  RunsOne 0xA8 .tay (fun s t => GivesY s.a s t) ∧
  RunsOne 0x8A .txa (fun s t => GivesA s.x s t) ∧
  RunsOne 0x98 .tya (fun s t => GivesA s.y s t) ∧
  RunsOne 0xBA .tsx (fun s t => GivesX s.sp s t) ∧
  RunsOne 0x9A .txs (fun s t => t.sp = s.x ∧ WritesOnlySp s t ∧ KeepsMemory s t)

/-- Each opcode is its instruction, and from every state it completes: PHA and PHP push A or the status byte and change no flag; PLA pulls A and sets Z and N from it; PLP pulls the seven flags from bits 7, 6, 4, 3, 2, 1, 0 with U unchanged, N and Z being the pulled bits. Pulls change no memory byte, and everything else is as before. -/
def Obligations.StackInstructionsPushAndPull : Prop :=
  RunsOne 0x48 .pha (fun s t => Pushes s.a s t) ∧
  RunsOne 0x08 .php (fun s t => Pushes s.flags.statusByte s t ∧ s.flags.statusByte.getLsbD 5 = true ∧
    s.flags.statusByte.getLsbD 4 = s.flags.b) ∧
  RunsOne 0x68 .pla (fun s t => t.a = pulledByte s ∧ ShowsZN t (pulledByte s) ∧ KeepsAllButZN s t ∧
    t.sp.toNat = (s.sp.toNat + 1) % 256 ∧ t.x = s.x ∧ t.y = s.y ∧ t.pc = s.pc ∧ KeepsMemory s t) ∧
  RunsOne 0x28 .plp (fun s t => t.flags.n = (pulledByte s).getLsbD 7 ∧ t.flags.v = (pulledByte s).getLsbD 6 ∧
    t.flags.b = (pulledByte s).getLsbD 4 ∧ t.flags.d = (pulledByte s).getLsbD 3 ∧ t.flags.i = (pulledByte s).getLsbD 2 ∧
    t.flags.z = (pulledByte s).getLsbD 1 ∧ t.flags.c = (pulledByte s).getLsbD 0 ∧ t.flags.uValue = true ∧
    t.sp.toNat = (s.sp.toNat + 1) % 256 ∧ t.a = s.a ∧ t.x = s.x ∧ t.y = s.y ∧ t.pc = s.pc ∧ KeepsMemory s t)

/-- Bits 7 to 0 of the status byte are N, V, the constant 1, B, D, I, Z and C. As R28's two definitions imply, setting the flags from a status byte gives the flags it was made of, and the status byte after setting the flags from a byte is that byte with bit 5 set. U reads 1 in every state: after construction, after any instruction and after any host write. -/
def Obligations.StatusByteLayoutAndRoundTrip : Prop :=
  (∀ f : Flags,
    (List.range 8).map f.statusByte.getLsbD = [f.c, f.z, f.i, f.d, f.b, true, f.v, f.n] ∧
    ∀ g : Flags, g.setStatusByte f.statusByte = f) ∧
  (∀ (f : Flags) (p : Byte), (f.setStatusByte p).statusByte = p ||| 0x20 ∧ (f.setStatusByte p).uValue = true) ∧
  ∀ s : State, s.hostReadFlag .u = true ∧ s.flags.statusByte.getLsbD 5 = true

/-- After PHA, whatever is then put in A, PLA restores the A that was pushed, with Z and N from it and SP as it was; after PHP, whatever the flags are then, PLP restores all seven and SP. -/
def Obligations.StackRoundTripsRestore : Prop :=
  ∀ (s : State) (a : Byte) (f : Flags),
    (∃ t u, exec .pha s = .next t ∧ exec .pla (t.withA a) = .next u ∧ u.a = s.a ∧ u.sp = s.sp ∧ ShowsZN u s.a) ∧
    (∃ t u, exec .php s = .next t ∧ exec .plp (t.withFlags f) = .next u ∧ u.flags = s.flags ∧ u.sp = s.sp)

/-- Both opcodes of JMP are its forms, and from every state JMP completes with PC the 16-bit operand (ABS) or the address the pointer gives (IND, R72, under the machine's JmpIndirectPageWrap), and everything else as before. -/
def Obligations.JumpsSetPc : Prop :=
  RunsThree 0x4C .jmpAbs (fun w s t => JumpEffect w s t) ∧
  RunsThree 0x6C .jmpInd (fun w s t => JumpEffect (s.eaIndirectWith Config.jmpIndirectPageWrap w) s t)

/-- The opcode is JSR, and from every state it completes: with ret = (PC − 1) mod 2^16, the high byte of ret is at 0x0100 + SP and the low byte at 0x0100 + (SP − 1 mod 2^8), every other memory byte is as before, SP is two less mod 2^8, PC is the target, and A, X, Y and the flags are as before. -/
def Obligations.JsrPushesTheReturnAddress : Prop :=
  RunsThree 0x20 .jsr (fun w s t =>
    (t.read (BitVec.ofNat 16 (256 + s.sp.toNat))).toNat = ((s.pc.toNat + 65535) % 65536) / 256 ∧
    (t.read (BitVec.ofNat 16 (256 + (s.sp.toNat + 255) % 256))).toNat = ((s.pc.toNat + 65535) % 65536) % 256 ∧
    (∀ b : Addr, b ≠ BitVec.ofNat 16 (256 + s.sp.toNat) → b ≠ BitVec.ofNat 16 (256 + (s.sp.toNat + 255) % 256) →
      t.read b = s.read b) ∧
    t.sp.toNat = (s.sp.toNat + 254) % 256 ∧ t.pc = w ∧ t.a = s.a ∧ t.x = s.x ∧ t.y = s.y ∧ t.flags = s.flags)

/-- The opcode is RTS, and from every state it completes: the two bytes above SP in page 1 (SP + 1 and SP + 2 mod 2^8) are the low and high byte of an address, PC is that address plus 1 mod 2^16, SP is two more mod 2^8, and everything else is as before. -/
def Obligations.RtsPullsTheReturnAddress : Prop :=
  RunsOne 0x60 .rts (fun s t =>
    t.pc.toNat = ((pulledByte s).toNat +
      256 * (s.read (BitVec.ofNat 16 (256 + (s.sp.toNat + 2) % 256))).toNat + 1) % 65536 ∧
    t.sp.toNat = (s.sp.toNat + 2) % 256 ∧ t.a = s.a ∧ t.x = s.x ∧ t.y = s.y ∧ t.flags = s.flags ∧ KeepsMemory s t)

/-- From every state whose byte at PC is a JSR and whose byte at the target, after the pushes, is an RTS: the two steps complete, the second with PC three past the JSR mod 2^16, SP, A, X, Y and the flags as before the JSR, and every memory byte outside the two stack bytes as before. -/
def Obligations.JsrThenRtsResumesAfterTheJsr : Prop :=
  ∀ s : State, s.read s.pc = 0x20 →
    ∃ t, step s = .next t ∧ t.pc = s.read (s.pc + 2) ++ s.read (s.pc + 1) ∧
      (t.read t.pc = 0x60 →
        ∃ u, step t = .next u ∧ u.pc = s.pc + 3 ∧ u.sp = s.sp ∧ u.a = s.a ∧ u.x = s.x ∧ u.y = s.y ∧
          u.flags = s.flags ∧
          ∀ b : Addr, b ≠ stackAddr s.sp → b ≠ stackAddr (s.sp - 1) → u.read b = s.read b)

/-- Opcode 0xEA is NOP; its meaning completes with the state it is given, and a step of it from any state completes with PC one more mod 2^16 and everything else as before. -/
def Obligations.NopOnlyAdvancesPc : Prop :=
  (∀ rest, decode (0xEA :: rest) = .ok (.nop, rest)) ∧ (∀ s : State, exec .nop s = .next s) ∧
  ∀ s : State, s.read s.pc = 0xEA → step s = .next (s.withPc (BitVec.ofNat 16 (s.pc.toNat + 1)))

/-- For every instruction and state, when its meaning completes: A can change only by the instructions R22 names (the shifts and rotates only in their accumulator form), X, Y and SP likewise, and PC, once the step has advanced it, only by the branches, JMP, JSR and RTS. -/
def Obligations.OnlyTheNamedInstructionsWriteEachRegister : Prop :=
  ∀ (i : Instr) (s t : State), exec i s = .next t →
    (t.a ≠ s.a → i.mnemonic ∈ [Mnemonic.ora, .and, .eor, .adc, .sbc, .lda, .txa, .tya, .pla] ∨
      (i.mode = .acc ∧ i.mnemonic ∈ [Mnemonic.asl, .lsr, .rol, .ror])) ∧
    (t.x ≠ s.x → i.mnemonic ∈ [Mnemonic.inx, .dex, .ldx, .tax, .tsx]) ∧
    (t.y ≠ s.y → i.mnemonic ∈ [Mnemonic.iny, .dey, .ldy, .tay]) ∧
    (t.sp ≠ s.sp → i.mnemonic ∈ [Mnemonic.txs, .pha, .pla, .php, .plp, .jsr, .rts]) ∧
    (t.pc ≠ s.pc →
      i.mnemonic ∈ [Mnemonic.bpl, .bmi, .bvc, .bvs, .bcc, .bcs, .bne, .beq] ++ [Mnemonic.jmp, .jsr, .rts])

/-- For every instruction and state, when its meaning completes: N and Z can change only by the instructions whose rules affect them (logic and BIT, the shifts and rotates, ADC, SBC, the compares, the increments and decrements, the loads, the transfers but TXS, PLA and PLP); V only by ADC, SBC, BIT, CLV and PLP, and it becomes 1 only by ADC, SBC, BIT and PLP; C only by ADC, SBC, the shifts and rotates, the compares, CLC, SEC and PLP; D only by CLD, SED and PLP; I only by CLI, SEI and PLP; B only by PLP. -/
def Obligations.OnlyTheNamedInstructionsWriteEachFlag : Prop :=
  ∀ (i : Instr) (s t : State), exec i s = .next t →
    (t.flags.n ≠ s.flags.n ∨ t.flags.z ≠ s.flags.z →
      i.mnemonic ∈ [Mnemonic.ora, .and, .eor, .bit, .asl, .lsr, .rol, .ror, .adc, .sbc, .cmp, .cpx, .cpy] ++
        [Mnemonic.inc, .dec, .inx, .iny, .dex, .dey, .lda, .ldx, .ldy, .tax, .tay, .txa, .tya, .tsx, .pla, .plp]) ∧
    (t.flags.v ≠ s.flags.v → i.mnemonic ∈ [Mnemonic.adc, .sbc, .bit, .clv, .plp]) ∧
    (t.flags.v = true → s.flags.v = true ∨ i.mnemonic ∈ [Mnemonic.adc, .sbc, .bit, .plp]) ∧
    (t.flags.c ≠ s.flags.c →
      i.mnemonic ∈ [Mnemonic.adc, .sbc, .asl, .lsr, .rol, .ror, .cmp, .cpx, .cpy, .clc, .sec, .plp]) ∧
    (t.flags.d ≠ s.flags.d → i.mnemonic ∈ [Mnemonic.cld, .sed, .plp]) ∧
    (t.flags.i ≠ s.flags.i → i.mnemonic ∈ [Mnemonic.cli, .sei, .plp]) ∧
    (t.flags.b ≠ s.flags.b → i.mnemonic = .plp)

/-- D changes only by CLD, SED and PLP, I only by CLI, SEI and PLP, B only by PLP. For every instruction other than PHP, running it from a state with other values of B, D and I gives the same outcome: the same error, or the same next state in everything but the flags among B, D and I that the instruction does not write, which keep the values they were given; the ones it writes (D by CLD, SED and PLP, I by CLI, SEI and PLP, B by PLP) are the same in both. -/
def Obligations.BreakDecimalAndInterruptFlagsAreInert : Prop :=
  (∀ (i : Instr) (s t : State), exec i s = .next t →
    (t.flags.d ≠ s.flags.d → i.mnemonic ∈ [Mnemonic.cld, .sed, .plp]) ∧
    (t.flags.i ≠ s.flags.i → i.mnemonic ∈ [Mnemonic.cli, .sei, .plp]) ∧ (t.flags.b ≠ s.flags.b → i.mnemonic = .plp)) ∧
  ∀ (i : Instr) (s : State) (b d e : Bool), i.mnemonic ≠ .php →
    (∀ t, exec i s = .next t →
      exec i (withInertFlags s b d e) = .next (withInertFlags t
        (if i.mnemonic = .plp then t.flags.b else b)
        (if i.mnemonic ∈ [Mnemonic.cld, .sed, .plp] then t.flags.d else d)
        (if i.mnemonic ∈ [Mnemonic.cli, .sei, .plp] then t.flags.i else e))) ∧
    (∀ f, exec i s = .fault f → exec i (withInertFlags s b d e) = .fault f)

/-- When a step completes, memory afterwards is memory before with the writes of the step's access list applied in order, so every byte that no listed write names reads as before. The access list is the model's rendering of R55 (log 12). -/
def Obligations.StepWritesExactlyItsListedAccesses : Prop :=
  ∀ s t : State, step s = .next t →
    t.mem = s.stepAccesses.foldl Access.apply s.mem ∧
    ∀ a : Addr, (∀ v, Access.write a v ∉ s.stepAccesses) → t.read a = s.read a

/-- If another memory agrees with the state's at every address the step's access list reads, then from the state with that memory the step has the same access list and the same outcome: the same error, or a next state with the same registers and flags. The access list is the model's rendering of R55 (log 12). -/
def Obligations.StepDependsOnlyOnItsListedReads : Prop :=
  ∀ (s : State) (m : Memory), (∀ a : Addr, Access.read a ∈ s.stepAccesses → m.read a = s.read a) →
    ({ s with mem := m } : State).stepAccesses = s.stepAccesses ∧
    (∀ t, step s = .next t → ∃ t', step { s with mem := m } = .next t' ∧ SameRegisters t t') ∧
    (∀ e, step s = .fault e → step { s with mem := m } = .fault e)

/-- After a host write between steps, reading the register, PC, flag or byte written gives the value written (U reads 1), and every other register, flag and byte reads as before. -/
def Obligations.HostWritesSetExactly : Prop :=
  ∀ s : State,
    (∀ r v r', (s.hostWrite (.register r v)).hostReadRegister r' = if r' = r then v else s.hostReadRegister r') ∧
    (∀ r v, (s.hostWrite (.register r v)).pc = s.pc ∧ (s.hostWrite (.register r v)).flags = s.flags ∧
      KeepsMemory s (s.hostWrite (.register r v))) ∧
    (∀ v, (s.hostWrite (.pc v)).hostReadPc = v ∧ (s.hostWrite (.pc v)).a = s.a ∧
      KeepsIndexAndStack s (s.hostWrite (.pc v)) ∧ (s.hostWrite (.pc v)).flags = s.flags ∧
      KeepsMemory s (s.hostWrite (.pc v))) ∧
    (∀ f b f', (s.hostWrite (.flag f b)).hostReadFlag f' =
      if f' = .u then true else if f' = f then b else s.hostReadFlag f') ∧
    (∀ f b, KeepsRegisters s (s.hostWrite (.flag f b)) ∧ KeepsMemory s (s.hostWrite (.flag f b))) ∧
    (∀ a v, StoresByte s (s.hostWrite (.byte a v)) a v ∧ SameRegisters s (s.hostWrite (.byte a v)))

/-- From every state, a step over the plain buffer returns what step returns to its host and leaves the registers and the memory that step leaves, after a completed instruction and after an error. Construction over the plain buffer that holds an image gives the registers of construction from that image and leaves the buffer as it is. What a step or a construction over a bus is, is the model's reading of R45 (log 6, DEDUCED). -/
def Obligations.BusStepOverThePlainBufferIsTheStep : Prop :=
  (∀ s : State, Bus.plain.step s.registers s.mem =
    ((hostStep s).1, (hostStep s).2.registers, (hostStep s).2.mem)) ∧
  ∀ (image : List Byte) (c : Config.ResetRegs),
    Bus.plain.construct c (Memory.ofImage image) = ((State.construct image c).registers, Memory.ofImage image)

/-- For every bus, registers and host state there is a sequence of byte accesses such that the host's state after a step is its state after exactly those accesses, and the step's result and registers are a function of the bytes the host answered: the same step with no host behind it, given those bytes beforehand, uses each of them once, makes the same accesses, and returns the same result and registers. Construction over any bus makes two reads, at 0xFFFC and 0xFFFD, and PC is the word the two answers form, low byte first (R44, R263); SP is 0xFF, U is 1 and the other registers and flags are the given ones (R262). That the vector read goes through the bus is the model's reading of R45 (log 6, DEDUCED). -/
def Obligations.BusStepMeetsTheHostOnlyThroughItsAccesses : Prop :=
  ∀ (μ : Type) (bus : Bus μ) (h : μ),
    (∀ r : Registers, ∃ log : List Access,
      (bus.step r h).2.2 = bus.replay log h ∧
      Bus.scripted.step r { inputs := bus.answers log h, log := [] } =
        ((bus.step r h).1, (bus.step r h).2.1, { inputs := [], log := log })) ∧
    ∀ c : Config.ResetRegs,
      (bus.construct c h).2 = bus.replay [.read 0xFFFC, .read 0xFFFD] h ∧
      ∃ lo hi : Byte, bus.answers [.read 0xFFFC, .read 0xFFFD] h = [lo, hi] ∧
        (bus.construct c h).1 =
          { a := c.a, x := c.x, y := c.y, sp := 0xFF, pc := hi ++ lo, flags := Flags.construct c }

/-- From every state, the step with no host behind it, answered with the bytes the plain buffer gives along the step's access list, makes exactly the accesses of that list in that order and uses each byte once. The list is the model's rendering of R55 (log 12, DESIGN CHOICE), and the step over a bus makes its accesses from that list (log 6, DEDUCED). -/
def Obligations.BusStepMakesTheListedAccesses : Prop :=
  ∀ s : State,
    (Bus.scripted.step s.registers { inputs := Bus.plain.answers s.stepAccesses s.mem, log := [] }).2.2 =
      { inputs := [], log := s.stepAccesses }

/-- With no host behind the bus and any bytes given for its reads: LDA (zp),Y (0xB1) takes its operand byte, the low and the high byte of its pointer and its operand from the second to the fifth answer, even where its operand has the address of a pointer byte, and makes no write; INC abs (0xEE) reads the byte at its operand once and writes the answer plus 1 mod 2^8 there once. Registers and flags follow, and nothing else changes. The order and number of the accesses are those of the model's rendering of R55 (log 12, DESIGN CHOICE), from which the step over a bus (log 6, DEDUCED) makes them. -/
def Obligations.BusAnswersAreTheBytesTheRuleUses : Prop :=
  ∀ (r : Registers) (rest : List Byte) (b lo hi m : Byte),
    Bus.scripted.step r { inputs := 0xB1 :: b :: lo :: hi :: m :: rest, log := [] } =
      (.ok { opcode := 0xB1, pc := r.pc }, { r with a := m, pc := r.pc + 2, flags := r.flags.setZN m },
        { inputs := rest, log := [.read r.pc, .read (r.pc + 1), .read (zext16 b), .read (zext16 (b + 1)),
          .read ((hi ++ lo) + zext16 r.y)] }) ∧
    Bus.scripted.step r { inputs := 0xEE :: lo :: hi :: m :: rest, log := [] } =
      (.ok { opcode := 0xEE, pc := r.pc }, { r with pc := r.pc + 3, flags := r.flags.setZN (m + 1) },
        { inputs := rest, log := [.read r.pc, .read (r.pc + 1), .read (r.pc + 2), .read (hi ++ lo),
          .write (hi ++ lo) (m + 1)] })
end

