-- ==== Sys2Proof/Laws/Bits.lean ====
section
/-! SUPPORT. The byte and address arithmetic of the model as numbers: byte order, extensions, the stack address, bit 7. -/

namespace Sys2Proof

theorem joinBytes_toNat (lo hi : Byte) : (joinBytes lo hi).toNat = lo.toNat + 256 * hi.toNat := by
  unfold joinBytes
  have h := lo.isLt
  rw [BitVec.toNat_append, ← Nat.shiftLeft_add_eq_or_of_lt h, Nat.shiftLeft_eq]
  omega

theorem lowByte_toNat (w : Addr) : (lowByte w).toNat = w.toNat % 256 := by
  simp [lowByte, BitVec.extractLsb'_toNat]

theorem highByte_toNat (w : Addr) : (highByte w).toNat = w.toNat / 256 := by
  have := w.isLt
  simp [highByte, BitVec.extractLsb'_toNat, Nat.shiftRight_eq_div_pow]
  omega

@[simp] theorem joinBytes_low_high (w : Addr) : joinBytes (lowByte w) (highByte w) = w := by
  apply BitVec.eq_of_toNat_eq
  rw [joinBytes_toNat, lowByte_toNat, highByte_toNat]
  omega

@[simp] theorem lowByte_joinBytes (lo hi : Byte) : lowByte (joinBytes lo hi) = lo := by
  apply BitVec.eq_of_toNat_eq
  have := lo.isLt
  rw [lowByte_toNat, joinBytes_toNat]
  omega

@[simp] theorem highByte_joinBytes (lo hi : Byte) : highByte (joinBytes lo hi) = hi := by
  apply BitVec.eq_of_toNat_eq
  have := lo.isLt
  rw [highByte_toNat, joinBytes_toNat]
  omega

/-- Bit 7 as a number: a byte of 128 or more (R7, R26). -/
theorem getLsbD_seven (v : Byte) : v.getLsbD 7 = true ↔ 128 ≤ v.toNat := by
  have := v.isLt
  rw [BitVec.getLsbD, Nat.testBit_eq_decide_div_mod_eq]
  simp
  omega

/-- Bit 0 as a number (R7). -/
theorem getLsbD_zero (v : Byte) : v.getLsbD 0 = true ↔ v.toNat % 2 = 1 := by
  rw [BitVec.getLsbD, Nat.testBit_eq_decide_div_mod_eq]
  simp

namespace Machine

@[simp] theorem zext16_toNat (v : Byte) : (zext16 v).toNat = v.toNat := by
  have := v.isLt
  simp [zext16]
  omega

/-- `sext_16` keeps the signed value (R8). -/
@[simp] theorem sext16_toInt (v : Byte) : (sext16 v).toInt = v.toInt :=
  BitVec.toInt_signExtend_of_le (by decide)

/-- The stack byte of SP is in page 1 (R23, R49). -/
theorem stackAddr_toNat (sp : Byte) : (stackAddr sp).toNat = 256 + sp.toNat := by
  have := sp.isLt
  simp [stackAddr, Config.stackPage]
  omega

theorem stackAddr_eq (sp : Byte) : stackAddr sp = BitVec.ofNat 16 (256 + sp.toNat) := by
  apply BitVec.eq_of_toNat_eq
  have := sp.isLt
  rw [stackAddr_toNat, BitVec.toNat_ofNat]
  omega

theorem stackAddr_inj {p q : Byte} (h : stackAddr p = stackAddr q) : p = q := by
  apply BitVec.eq_of_toNat_eq
  have := congrArg BitVec.toNat h
  rw [stackAddr_toNat, stackAddr_toNat] at this
  omega

end Machine

end Sys2Proof
end

