-- ==== Sys2Proof/Laws/Memory.lean ====
section
/-! SUPPORT. The laws of memory: a read after a write, the canonical form kept by every operation, and the memory of an
image. -/

namespace Sys2Proof.Machine

/-! ### Reading what an operation leaves -/

theorem Memory.byteAt_unlist (m : Memory) (a b : Nat) :
    Memory.byteAt (Memory.unlist m a) b = if b = a then Memory.blankByte else Memory.byteAt m b := by
  induction m with
  | nil => simp [Memory.unlist, Memory.byteAt]
  | cons e rest ih =>
    obtain ⟨c, w⟩ := e
    by_cases hc : c = a <;> by_cases hb : c = b <;>
      simp_all [Memory.unlist, Memory.byteAt]

theorem Memory.unlist_absent (m : Memory) (a : Nat) : ∀ e ∈ Memory.unlist m a, e.1 ≠ a := by
  induction m with
  | nil => simp [Memory.unlist]
  | cons e rest ih =>
    obtain ⟨c, w⟩ := e
    by_cases hc : c = a
    · simpa [Memory.unlist, hc] using ih
    · simpa [Memory.unlist, hc] using ih

theorem Memory.byteAt_enlist (m : Memory) (a b : Nat) (v : Byte) (absent : ∀ e ∈ m, e.1 ≠ a) :
    Memory.byteAt (Memory.enlist m a v) b = if b = a then v else Memory.byteAt m b := by
  induction m with
  | nil => simp [Memory.enlist, Memory.byteAt, eq_comm]
  | cons e rest ih =>
    obtain ⟨c, w⟩ := e
    have hne : c ≠ a := absent (c, w) (by simp)
    have ih := ih (fun e he => absent e (by simp [he]))
    by_cases hlt : a < c
    · simp [Memory.enlist, hlt, Memory.byteAt, eq_comm]
    · simp only [Memory.enlist, hlt, if_false, Memory.byteAt, ih]
      by_cases hb : b = a
      · simp [hb, hne]
      · simp [hb]

/-- A write sets its byte and leaves every other byte alone (R43), in every memory, canonical or not. -/
theorem Memory.read_write (m : Memory) (a b : Addr) (v : Byte) :
    (m.write a v).read b = if b = a then v else m.read b := by
  unfold Memory.write Memory.read
  by_cases hv : v = Memory.blankByte
  · simp [hv, Memory.byteAt_unlist, BitVec.toNat_inj]
  · simp [hv, Memory.byteAt_enlist _ _ _ _ (Memory.unlist_absent m a.toNat), Memory.byteAt_unlist,
      BitVec.toNat_inj]
    split <;> rfl

@[simp] theorem Memory.read_write_same (m : Memory) (a : Addr) (v : Byte) : (m.write a v).read a = v := by
  simp [Memory.read_write]

theorem Memory.read_write_other (m : Memory) {a b : Addr} (v : Byte) (h : b ≠ a) :
    (m.write a v).read b = m.read b := by
  simp [Memory.read_write, h]

theorem Memory.readWord_eq (m : Memory) (a : Addr) : m.readWord a = joinBytes (m.read a) (m.read (a + 1)) := rfl

/-! ### The canonical form -/

theorem Memory.wfFrom_mono {m : Memory} {lo lo' : Nat} (h : lo' ≤ lo) (w : Memory.wfFrom lo m = true) :
    Memory.wfFrom lo' m = true := by
  cases m with
  | nil => rfl
  | cons e rest => simp_all [Memory.wfFrom]; omega

theorem Memory.wfFrom_unlist {m : Memory} {lo : Nat} (a : Nat) (w : Memory.wfFrom lo m = true) :
    Memory.wfFrom lo (Memory.unlist m a) = true := by
  induction m generalizing lo with
  | nil => rfl
  | cons e rest ih =>
    obtain ⟨c, v⟩ := e
    simp only [Memory.wfFrom, Bool.and_eq_true, decide_eq_true_eq] at w
    obtain ⟨⟨⟨hlo, hhi⟩, hv⟩, hr⟩ := w
    by_cases hc : c = a
    · simpa [Memory.unlist, hc] using Memory.wfFrom_mono (by omega) (ih hr)
    · simp [Memory.unlist, hc, Memory.wfFrom, hlo, hhi, ih hr, bne_iff_ne.mp hv]

theorem Memory.wfFrom_enlist {m : Memory} {lo a : Nat} {v : Byte} (w : Memory.wfFrom lo m = true)
    (absent : ∀ e ∈ m, e.1 ≠ a) (hlo : lo ≤ a) (hhi : a < 65536) (hv : v ≠ Memory.blankByte) :
    Memory.wfFrom lo (Memory.enlist m a v) = true := by
  induction m generalizing lo with
  | nil => simp [Memory.enlist, Memory.wfFrom, hlo, hhi, hv]
  | cons e rest ih =>
    obtain ⟨c, x⟩ := e
    simp only [Memory.wfFrom, Bool.and_eq_true, decide_eq_true_eq] at w
    obtain ⟨⟨⟨h1, h2⟩, h3⟩, hr⟩ := w
    have hne : c ≠ a := absent (c, x) (by simp)
    by_cases hlt : a < c
    · simp only [Memory.enlist, hlt, if_true, Memory.wfFrom, Bool.and_eq_true, decide_eq_true_eq]
      exact ⟨⟨⟨hlo, hhi⟩, by simpa using hv⟩, ⟨⟨hlt, h2⟩, h3⟩, hr⟩
    · simp only [Memory.enlist, hlt, if_false, Memory.wfFrom, Bool.and_eq_true, decide_eq_true_eq]
      exact ⟨⟨⟨h1, h2⟩, h3⟩, ih hr (fun e he => absent e (by simp [he])) (by omega)⟩

/-- A write keeps the canonical form. -/
theorem Memory.wf_write {m : Memory} (a : Addr) (v : Byte) (w : m.wf = true) : (m.write a v).wf = true := by
  unfold Memory.write Memory.wf
  by_cases hv : v = Memory.blankByte
  · simpa [hv] using Memory.wfFrom_unlist a.toNat w
  · simpa [hv] using Memory.wfFrom_enlist (Memory.wfFrom_unlist a.toNat w) (Memory.unlist_absent m a.toNat)
      (Nat.zero_le _) a.isLt hv

theorem Memory.wfFrom_ofImageFrom (image : List Byte) (a : Nat) :
    Memory.wfFrom a (Memory.ofImageFrom a image) = true := by
  induction image generalizing a with
  | nil => rfl
  | cons v rest ih =>
    by_cases h : a < 65536 ∧ v ≠ Memory.blankByte
    · simp [Memory.ofImageFrom, h, Memory.wfFrom, ih]
    · simpa [Memory.ofImageFrom, h] using Memory.wfFrom_mono (by omega) (ih (a + 1))

/-- The memory of an image has the canonical form. -/
theorem Memory.wf_ofImage (image : List Byte) : (Memory.ofImage image).wf = true :=
  Memory.wfFrom_ofImageFrom image 0

theorem Memory.byteAt_eq_blank {m : Memory} {lo b : Nat} (w : Memory.wfFrom lo m = true) (h : b < lo) :
    Memory.byteAt m b = Memory.blankByte := by
  induction m generalizing lo with
  | nil => rfl
  | cons e rest ih =>
    obtain ⟨c, v⟩ := e
    simp only [Memory.wfFrom, Bool.and_eq_true, decide_eq_true_eq] at w
    have hc : c ≠ b := by omega
    simpa [Memory.byteAt, hc] using ih w.2 (by omega)

theorem Memory.byteAt_ofImageFrom (image : List Byte) (a b : Nat) (lo : a ≤ b) (hi : b < 65536) :
    Memory.byteAt (Memory.ofImageFrom a image) b = image.getD (b - a) Memory.blankByte := by
  induction image generalizing a with
  | nil => rfl
  | cons v rest ih =>
    have below := Memory.wfFrom_ofImageFrom rest (a + 1)
    by_cases hb : a = b
    · subst hb
      by_cases hv : v = Memory.blankByte
      · simp [Memory.ofImageFrom, hv, Memory.byteAt_eq_blank below (Nat.lt_succ_self a)]
      · simp [Memory.ofImageFrom, hv, hi, Memory.byteAt]
    · have hsub : b - a = (b - (a + 1)) + 1 := by omega
      rw [hsub, List.getD_cons_succ, ← ih (a + 1) (by omega)]
      by_cases h : a < 65536 ∧ v ≠ Memory.blankByte
      · simp [Memory.ofImageFrom, h, Memory.byteAt, hb]
      · simp [Memory.ofImageFrom, h]

/-- `M[a] = MemImage[a]` (R261), with the blank byte past the end of the image. -/
theorem Memory.read_ofImage (image : List Byte) (a : Addr) :
    (Memory.ofImage image).read a = image.getD a.toNat Memory.blankByte := by
  simpa [Memory.read, Memory.ofImage] using
    Memory.byteAt_ofImageFrom image 0 a.toNat (Nat.zero_le _) a.isLt

end Sys2Proof.Machine
end

