-- ==== Sys2Proof/Laws/State.lean ====
section
/-! SUPPORT. One lemma per field per update of State and of Flags, true by rfl, so that no later proof unfolds a record
update. -/

namespace Sys2Proof.Machine

/-! ### Updates of State -/

@[simp] theorem State.withA_a (s : State) (v : Byte) : (s.withA v).a = v := rfl
@[simp] theorem State.withA_x (s : State) (v : Byte) : (s.withA v).x = s.x := rfl
@[simp] theorem State.withA_y (s : State) (v : Byte) : (s.withA v).y = s.y := rfl
@[simp] theorem State.withA_sp (s : State) (v : Byte) : (s.withA v).sp = s.sp := rfl
@[simp] theorem State.withA_pc (s : State) (v : Byte) : (s.withA v).pc = s.pc := rfl
@[simp] theorem State.withA_flags (s : State) (v : Byte) : (s.withA v).flags = s.flags := rfl
@[simp] theorem State.withA_mem (s : State) (v : Byte) : (s.withA v).mem = s.mem := rfl
@[simp] theorem State.withA_read (s : State) (v : Byte) (b : Addr) : (s.withA v).read b = s.read b := rfl

@[simp] theorem State.withX_a (s : State) (v : Byte) : (s.withX v).a = s.a := rfl
@[simp] theorem State.withX_x (s : State) (v : Byte) : (s.withX v).x = v := rfl
@[simp] theorem State.withX_y (s : State) (v : Byte) : (s.withX v).y = s.y := rfl
@[simp] theorem State.withX_sp (s : State) (v : Byte) : (s.withX v).sp = s.sp := rfl
@[simp] theorem State.withX_pc (s : State) (v : Byte) : (s.withX v).pc = s.pc := rfl
@[simp] theorem State.withX_flags (s : State) (v : Byte) : (s.withX v).flags = s.flags := rfl
@[simp] theorem State.withX_mem (s : State) (v : Byte) : (s.withX v).mem = s.mem := rfl
@[simp] theorem State.withX_read (s : State) (v : Byte) (b : Addr) : (s.withX v).read b = s.read b := rfl

@[simp] theorem State.withY_a (s : State) (v : Byte) : (s.withY v).a = s.a := rfl
@[simp] theorem State.withY_x (s : State) (v : Byte) : (s.withY v).x = s.x := rfl
@[simp] theorem State.withY_y (s : State) (v : Byte) : (s.withY v).y = v := rfl
@[simp] theorem State.withY_sp (s : State) (v : Byte) : (s.withY v).sp = s.sp := rfl
@[simp] theorem State.withY_pc (s : State) (v : Byte) : (s.withY v).pc = s.pc := rfl
@[simp] theorem State.withY_flags (s : State) (v : Byte) : (s.withY v).flags = s.flags := rfl
@[simp] theorem State.withY_mem (s : State) (v : Byte) : (s.withY v).mem = s.mem := rfl
@[simp] theorem State.withY_read (s : State) (v : Byte) (b : Addr) : (s.withY v).read b = s.read b := rfl

@[simp] theorem State.withSp_a (s : State) (v : Byte) : (s.withSp v).a = s.a := rfl
@[simp] theorem State.withSp_x (s : State) (v : Byte) : (s.withSp v).x = s.x := rfl
@[simp] theorem State.withSp_y (s : State) (v : Byte) : (s.withSp v).y = s.y := rfl
@[simp] theorem State.withSp_sp (s : State) (v : Byte) : (s.withSp v).sp = v := rfl
@[simp] theorem State.withSp_pc (s : State) (v : Byte) : (s.withSp v).pc = s.pc := rfl
@[simp] theorem State.withSp_flags (s : State) (v : Byte) : (s.withSp v).flags = s.flags := rfl
@[simp] theorem State.withSp_mem (s : State) (v : Byte) : (s.withSp v).mem = s.mem := rfl
@[simp] theorem State.withSp_read (s : State) (v : Byte) (b : Addr) : (s.withSp v).read b = s.read b := rfl

@[simp] theorem State.withPc_a (s : State) (v : Addr) : (s.withPc v).a = s.a := rfl
@[simp] theorem State.withPc_x (s : State) (v : Addr) : (s.withPc v).x = s.x := rfl
@[simp] theorem State.withPc_y (s : State) (v : Addr) : (s.withPc v).y = s.y := rfl
@[simp] theorem State.withPc_sp (s : State) (v : Addr) : (s.withPc v).sp = s.sp := rfl
@[simp] theorem State.withPc_pc (s : State) (v : Addr) : (s.withPc v).pc = v := rfl
@[simp] theorem State.withPc_flags (s : State) (v : Addr) : (s.withPc v).flags = s.flags := rfl
@[simp] theorem State.withPc_mem (s : State) (v : Addr) : (s.withPc v).mem = s.mem := rfl
@[simp] theorem State.withPc_read (s : State) (v : Addr) (b : Addr) : (s.withPc v).read b = s.read b := rfl

@[simp] theorem State.withFlags_a (s : State) (f : Flags) : (s.withFlags f).a = s.a := rfl
@[simp] theorem State.withFlags_x (s : State) (f : Flags) : (s.withFlags f).x = s.x := rfl
@[simp] theorem State.withFlags_y (s : State) (f : Flags) : (s.withFlags f).y = s.y := rfl
@[simp] theorem State.withFlags_sp (s : State) (f : Flags) : (s.withFlags f).sp = s.sp := rfl
@[simp] theorem State.withFlags_pc (s : State) (f : Flags) : (s.withFlags f).pc = s.pc := rfl
@[simp] theorem State.withFlags_flags (s : State) (f : Flags) : (s.withFlags f).flags = f := rfl
@[simp] theorem State.withFlags_mem (s : State) (f : Flags) : (s.withFlags f).mem = s.mem := rfl
@[simp] theorem State.withFlags_read (s : State) (f : Flags) (b : Addr) : (s.withFlags f).read b = s.read b := rfl

@[simp] theorem State.write_a (s : State) (b : Addr) (v : Byte) : (s.write b v).a = s.a := rfl
@[simp] theorem State.write_x (s : State) (b : Addr) (v : Byte) : (s.write b v).x = s.x := rfl
@[simp] theorem State.write_y (s : State) (b : Addr) (v : Byte) : (s.write b v).y = s.y := rfl
@[simp] theorem State.write_sp (s : State) (b : Addr) (v : Byte) : (s.write b v).sp = s.sp := rfl
@[simp] theorem State.write_pc (s : State) (b : Addr) (v : Byte) : (s.write b v).pc = s.pc := rfl
@[simp] theorem State.write_flags (s : State) (b : Addr) (v : Byte) : (s.write b v).flags = s.flags := rfl
@[simp] theorem State.write_mem (s : State) (b : Addr) (v : Byte) : (s.write b v).mem = s.mem.write b v := rfl

@[simp] theorem State.assignA_a (s : State) (v : Byte) : (s.assignA v).a = v := rfl
@[simp] theorem State.assignA_x (s : State) (v : Byte) : (s.assignA v).x = s.x := rfl
@[simp] theorem State.assignA_y (s : State) (v : Byte) : (s.assignA v).y = s.y := rfl
@[simp] theorem State.assignA_sp (s : State) (v : Byte) : (s.assignA v).sp = s.sp := rfl
@[simp] theorem State.assignA_pc (s : State) (v : Byte) : (s.assignA v).pc = s.pc := rfl
@[simp] theorem State.assignA_flags (s : State) (v : Byte) : (s.assignA v).flags = s.flags.setZN v := rfl
@[simp] theorem State.assignA_mem (s : State) (v : Byte) : (s.assignA v).mem = s.mem := rfl
@[simp] theorem State.assignA_read (s : State) (v : Byte) (b : Addr) : (s.assignA v).read b = s.read b := rfl

@[simp] theorem State.assignX_a (s : State) (v : Byte) : (s.assignX v).a = s.a := rfl
@[simp] theorem State.assignX_x (s : State) (v : Byte) : (s.assignX v).x = v := rfl
@[simp] theorem State.assignX_y (s : State) (v : Byte) : (s.assignX v).y = s.y := rfl
@[simp] theorem State.assignX_sp (s : State) (v : Byte) : (s.assignX v).sp = s.sp := rfl
@[simp] theorem State.assignX_pc (s : State) (v : Byte) : (s.assignX v).pc = s.pc := rfl
@[simp] theorem State.assignX_flags (s : State) (v : Byte) : (s.assignX v).flags = s.flags.setZN v := rfl
@[simp] theorem State.assignX_mem (s : State) (v : Byte) : (s.assignX v).mem = s.mem := rfl
@[simp] theorem State.assignX_read (s : State) (v : Byte) (b : Addr) : (s.assignX v).read b = s.read b := rfl

@[simp] theorem State.assignY_a (s : State) (v : Byte) : (s.assignY v).a = s.a := rfl
@[simp] theorem State.assignY_x (s : State) (v : Byte) : (s.assignY v).x = s.x := rfl
@[simp] theorem State.assignY_y (s : State) (v : Byte) : (s.assignY v).y = v := rfl
@[simp] theorem State.assignY_sp (s : State) (v : Byte) : (s.assignY v).sp = s.sp := rfl
@[simp] theorem State.assignY_pc (s : State) (v : Byte) : (s.assignY v).pc = s.pc := rfl
@[simp] theorem State.assignY_flags (s : State) (v : Byte) : (s.assignY v).flags = s.flags.setZN v := rfl
@[simp] theorem State.assignY_mem (s : State) (v : Byte) : (s.assignY v).mem = s.mem := rfl
@[simp] theorem State.assignY_read (s : State) (v : Byte) (b : Addr) : (s.assignY v).read b = s.read b := rfl

@[simp] theorem State.push_a (s : State) (v : Byte) : (s.push v).a = s.a := rfl
@[simp] theorem State.push_x (s : State) (v : Byte) : (s.push v).x = s.x := rfl
@[simp] theorem State.push_y (s : State) (v : Byte) : (s.push v).y = s.y := rfl
@[simp] theorem State.push_sp (s : State) (v : Byte) : (s.push v).sp = s.sp - 1 := rfl
@[simp] theorem State.push_pc (s : State) (v : Byte) : (s.push v).pc = s.pc := rfl
@[simp] theorem State.push_flags (s : State) (v : Byte) : (s.push v).flags = s.flags := rfl
@[simp] theorem State.push_mem (s : State) (v : Byte) : (s.push v).mem = s.mem.write (stackAddr s.sp) v := rfl

@[simp] theorem State.pulled_a (s : State) : s.pulled.a = s.a := rfl
@[simp] theorem State.pulled_x (s : State) : s.pulled.x = s.x := rfl
@[simp] theorem State.pulled_y (s : State) : s.pulled.y = s.y := rfl
@[simp] theorem State.pulled_sp (s : State) : s.pulled.sp = s.sp + 1 := rfl
@[simp] theorem State.pulled_pc (s : State) : s.pulled.pc = s.pc := rfl
@[simp] theorem State.pulled_flags (s : State) : s.pulled.flags = s.flags := rfl
@[simp] theorem State.pulled_mem (s : State) : s.pulled.mem = s.mem := rfl
@[simp] theorem State.pulled_read (s : State) (b : Addr) : s.pulled.read b = s.read b := rfl

/-! ### Updates of Flags -/

@[simp] theorem Flags.setN_n (f : Flags) (p : Bool) : (f.setN p).n = p := rfl
@[simp] theorem Flags.setN_v (f : Flags) (p : Bool) : (f.setN p).v = f.v := rfl
@[simp] theorem Flags.setN_u (f : Flags) (p : Bool) : (f.setN p).u = f.u := rfl
@[simp] theorem Flags.setN_b (f : Flags) (p : Bool) : (f.setN p).b = f.b := rfl
@[simp] theorem Flags.setN_d (f : Flags) (p : Bool) : (f.setN p).d = f.d := rfl
@[simp] theorem Flags.setN_i (f : Flags) (p : Bool) : (f.setN p).i = f.i := rfl
@[simp] theorem Flags.setN_z (f : Flags) (p : Bool) : (f.setN p).z = f.z := rfl
@[simp] theorem Flags.setN_c (f : Flags) (p : Bool) : (f.setN p).c = f.c := rfl

@[simp] theorem Flags.setV_n (f : Flags) (p : Bool) : (f.setV p).n = f.n := rfl
@[simp] theorem Flags.setV_v (f : Flags) (p : Bool) : (f.setV p).v = p := rfl
@[simp] theorem Flags.setV_u (f : Flags) (p : Bool) : (f.setV p).u = f.u := rfl
@[simp] theorem Flags.setV_b (f : Flags) (p : Bool) : (f.setV p).b = f.b := rfl
@[simp] theorem Flags.setV_d (f : Flags) (p : Bool) : (f.setV p).d = f.d := rfl
@[simp] theorem Flags.setV_i (f : Flags) (p : Bool) : (f.setV p).i = f.i := rfl
@[simp] theorem Flags.setV_z (f : Flags) (p : Bool) : (f.setV p).z = f.z := rfl
@[simp] theorem Flags.setV_c (f : Flags) (p : Bool) : (f.setV p).c = f.c := rfl

@[simp] theorem Flags.setB_n (f : Flags) (p : Bool) : (f.setB p).n = f.n := rfl
@[simp] theorem Flags.setB_v (f : Flags) (p : Bool) : (f.setB p).v = f.v := rfl
@[simp] theorem Flags.setB_u (f : Flags) (p : Bool) : (f.setB p).u = f.u := rfl
@[simp] theorem Flags.setB_b (f : Flags) (p : Bool) : (f.setB p).b = p := rfl
@[simp] theorem Flags.setB_d (f : Flags) (p : Bool) : (f.setB p).d = f.d := rfl
@[simp] theorem Flags.setB_i (f : Flags) (p : Bool) : (f.setB p).i = f.i := rfl
@[simp] theorem Flags.setB_z (f : Flags) (p : Bool) : (f.setB p).z = f.z := rfl
@[simp] theorem Flags.setB_c (f : Flags) (p : Bool) : (f.setB p).c = f.c := rfl

@[simp] theorem Flags.setD_n (f : Flags) (p : Bool) : (f.setD p).n = f.n := rfl
@[simp] theorem Flags.setD_v (f : Flags) (p : Bool) : (f.setD p).v = f.v := rfl
@[simp] theorem Flags.setD_u (f : Flags) (p : Bool) : (f.setD p).u = f.u := rfl
@[simp] theorem Flags.setD_b (f : Flags) (p : Bool) : (f.setD p).b = f.b := rfl
@[simp] theorem Flags.setD_d (f : Flags) (p : Bool) : (f.setD p).d = p := rfl
@[simp] theorem Flags.setD_i (f : Flags) (p : Bool) : (f.setD p).i = f.i := rfl
@[simp] theorem Flags.setD_z (f : Flags) (p : Bool) : (f.setD p).z = f.z := rfl
@[simp] theorem Flags.setD_c (f : Flags) (p : Bool) : (f.setD p).c = f.c := rfl

@[simp] theorem Flags.setI_n (f : Flags) (p : Bool) : (f.setI p).n = f.n := rfl
@[simp] theorem Flags.setI_v (f : Flags) (p : Bool) : (f.setI p).v = f.v := rfl
@[simp] theorem Flags.setI_u (f : Flags) (p : Bool) : (f.setI p).u = f.u := rfl
@[simp] theorem Flags.setI_b (f : Flags) (p : Bool) : (f.setI p).b = f.b := rfl
@[simp] theorem Flags.setI_d (f : Flags) (p : Bool) : (f.setI p).d = f.d := rfl
@[simp] theorem Flags.setI_i (f : Flags) (p : Bool) : (f.setI p).i = p := rfl
@[simp] theorem Flags.setI_z (f : Flags) (p : Bool) : (f.setI p).z = f.z := rfl
@[simp] theorem Flags.setI_c (f : Flags) (p : Bool) : (f.setI p).c = f.c := rfl

@[simp] theorem Flags.setZ_n (f : Flags) (p : Bool) : (f.setZ p).n = f.n := rfl
@[simp] theorem Flags.setZ_v (f : Flags) (p : Bool) : (f.setZ p).v = f.v := rfl
@[simp] theorem Flags.setZ_u (f : Flags) (p : Bool) : (f.setZ p).u = f.u := rfl
@[simp] theorem Flags.setZ_b (f : Flags) (p : Bool) : (f.setZ p).b = f.b := rfl
@[simp] theorem Flags.setZ_d (f : Flags) (p : Bool) : (f.setZ p).d = f.d := rfl
@[simp] theorem Flags.setZ_i (f : Flags) (p : Bool) : (f.setZ p).i = f.i := rfl
@[simp] theorem Flags.setZ_z (f : Flags) (p : Bool) : (f.setZ p).z = p := rfl
@[simp] theorem Flags.setZ_c (f : Flags) (p : Bool) : (f.setZ p).c = f.c := rfl

@[simp] theorem Flags.setC_n (f : Flags) (p : Bool) : (f.setC p).n = f.n := rfl
@[simp] theorem Flags.setC_v (f : Flags) (p : Bool) : (f.setC p).v = f.v := rfl
@[simp] theorem Flags.setC_u (f : Flags) (p : Bool) : (f.setC p).u = f.u := rfl
@[simp] theorem Flags.setC_b (f : Flags) (p : Bool) : (f.setC p).b = f.b := rfl
@[simp] theorem Flags.setC_d (f : Flags) (p : Bool) : (f.setC p).d = f.d := rfl
@[simp] theorem Flags.setC_i (f : Flags) (p : Bool) : (f.setC p).i = f.i := rfl
@[simp] theorem Flags.setC_z (f : Flags) (p : Bool) : (f.setC p).z = f.z := rfl
@[simp] theorem Flags.setC_c (f : Flags) (p : Bool) : (f.setC p).c = p := rfl

@[simp] theorem Flags.setZN_n (f : Flags) (v : Byte) : (f.setZN v).n = v.getLsbD 7 := rfl
@[simp] theorem Flags.setZN_v (f : Flags) (v : Byte) : (f.setZN v).v = f.v := rfl
@[simp] theorem Flags.setZN_u (f : Flags) (v : Byte) : (f.setZN v).u = f.u := rfl
@[simp] theorem Flags.setZN_b (f : Flags) (v : Byte) : (f.setZN v).b = f.b := rfl
@[simp] theorem Flags.setZN_d (f : Flags) (v : Byte) : (f.setZN v).d = f.d := rfl
@[simp] theorem Flags.setZN_i (f : Flags) (v : Byte) : (f.setZN v).i = f.i := rfl
@[simp] theorem Flags.setZN_z (f : Flags) (v : Byte) : (f.setZN v).z = (v == 0) := rfl
@[simp] theorem Flags.setZN_c (f : Flags) (v : Byte) : (f.setZN v).c = f.c := rfl

@[simp] theorem Flags.setStatusByte_n (f : Flags) (p : Byte) : (f.setStatusByte p).n = p.getLsbD 7 := rfl
@[simp] theorem Flags.setStatusByte_v (f : Flags) (p : Byte) : (f.setStatusByte p).v = p.getLsbD 6 := rfl
@[simp] theorem Flags.setStatusByte_u (f : Flags) (p : Byte) : (f.setStatusByte p).u = f.u := rfl
@[simp] theorem Flags.setStatusByte_b (f : Flags) (p : Byte) : (f.setStatusByte p).b = p.getLsbD 4 := rfl
@[simp] theorem Flags.setStatusByte_d (f : Flags) (p : Byte) : (f.setStatusByte p).d = p.getLsbD 3 := rfl
@[simp] theorem Flags.setStatusByte_i (f : Flags) (p : Byte) : (f.setStatusByte p).i = p.getLsbD 2 := rfl
@[simp] theorem Flags.setStatusByte_z (f : Flags) (p : Byte) : (f.setStatusByte p).z = p.getLsbD 1 := rfl
@[simp] theorem Flags.setStatusByte_c (f : Flags) (p : Byte) : (f.setStatusByte p).c = p.getLsbD 0 := rfl

@[simp] theorem Flags.compare_n (f : Flags) (reg m : Byte) : (f.compare reg m).n = (reg - m).getLsbD 7 := rfl
@[simp] theorem Flags.compare_v (f : Flags) (reg m : Byte) : (f.compare reg m).v = f.v := rfl
@[simp] theorem Flags.compare_u (f : Flags) (reg m : Byte) : (f.compare reg m).u = f.u := rfl
@[simp] theorem Flags.compare_b (f : Flags) (reg m : Byte) : (f.compare reg m).b = f.b := rfl
@[simp] theorem Flags.compare_d (f : Flags) (reg m : Byte) : (f.compare reg m).d = f.d := rfl
@[simp] theorem Flags.compare_i (f : Flags) (reg m : Byte) : (f.compare reg m).i = f.i := rfl
@[simp] theorem Flags.compare_z (f : Flags) (reg m : Byte) : (f.compare reg m).z = (reg == m) := rfl
@[simp] theorem Flags.compare_c (f : Flags) (reg m : Byte) : (f.compare reg m).c = decide (m.toNat ≤ reg.toNat) := rfl

@[simp] theorem Flags.bitTest_n (f : Flags) (a m : Byte) : (f.bitTest a m).n = m.getLsbD 7 := rfl
@[simp] theorem Flags.bitTest_v (f : Flags) (a m : Byte) : (f.bitTest a m).v = m.getLsbD 6 := rfl
@[simp] theorem Flags.bitTest_u (f : Flags) (a m : Byte) : (f.bitTest a m).u = f.u := rfl
@[simp] theorem Flags.bitTest_b (f : Flags) (a m : Byte) : (f.bitTest a m).b = f.b := rfl
@[simp] theorem Flags.bitTest_d (f : Flags) (a m : Byte) : (f.bitTest a m).d = f.d := rfl
@[simp] theorem Flags.bitTest_i (f : Flags) (a m : Byte) : (f.bitTest a m).i = f.i := rfl
@[simp] theorem Flags.bitTest_z (f : Flags) (a m : Byte) : (f.bitTest a m).z = ((a &&& m) == 0) := rfl
@[simp] theorem Flags.bitTest_c (f : Flags) (a m : Byte) : (f.bitTest a m).c = f.c := rfl

@[simp] theorem Flags.shifted_n (f : Flags) (r : Byte × Bool) : (f.shifted r).n = r.1.getLsbD 7 := rfl
@[simp] theorem Flags.shifted_v (f : Flags) (r : Byte × Bool) : (f.shifted r).v = f.v := rfl
@[simp] theorem Flags.shifted_u (f : Flags) (r : Byte × Bool) : (f.shifted r).u = f.u := rfl
@[simp] theorem Flags.shifted_b (f : Flags) (r : Byte × Bool) : (f.shifted r).b = f.b := rfl
@[simp] theorem Flags.shifted_d (f : Flags) (r : Byte × Bool) : (f.shifted r).d = f.d := rfl
@[simp] theorem Flags.shifted_i (f : Flags) (r : Byte × Bool) : (f.shifted r).i = f.i := rfl
@[simp] theorem Flags.shifted_z (f : Flags) (r : Byte × Bool) : (f.shifted r).z = (r.1 == 0) := rfl
@[simp] theorem Flags.shifted_c (f : Flags) (r : Byte × Bool) : (f.shifted r).c = r.2 := rfl

@[simp] theorem Flags.summed_n (f : Flags) (t : Sum) : (f.summed t).n = t.r.getLsbD 7 := rfl
@[simp] theorem Flags.summed_v (f : Flags) (t : Sum) : (f.summed t).v = t.v := rfl
@[simp] theorem Flags.summed_u (f : Flags) (t : Sum) : (f.summed t).u = f.u := rfl
@[simp] theorem Flags.summed_b (f : Flags) (t : Sum) : (f.summed t).b = f.b := rfl
@[simp] theorem Flags.summed_d (f : Flags) (t : Sum) : (f.summed t).d = f.d := rfl
@[simp] theorem Flags.summed_i (f : Flags) (t : Sum) : (f.summed t).i = f.i := rfl
@[simp] theorem Flags.summed_z (f : Flags) (t : Sum) : (f.summed t).z = (t.r == 0) := rfl
@[simp] theorem Flags.summed_c (f : Flags) (t : Sum) : (f.summed t).c = t.c := rfl

@[simp] theorem Flags.uValue_eq (f : Flags) : f.uValue = true := rfl

/-! ### States and flags are their fields -/

@[ext] theorem Flags.ext_fields {f g : Flags} (n : f.n = g.n) (v : f.v = g.v) (b : f.b = g.b) (d : f.d = g.d)
    (i : f.i = g.i) (z : f.z = g.z) (c : f.c = g.c) : f = g := by
  cases f; cases g; simp_all

@[ext] theorem State.ext_fields {s t : State} (a : s.a = t.a) (x : s.x = t.x) (y : s.y = t.y) (sp : s.sp = t.sp)
    (pc : s.pc = t.pc) (flags : s.flags = t.flags) (mem : s.mem = t.mem) : s = t := by
  cases s; cases t; simp_all

end Sys2Proof.Machine
end

