-- ==== Sys2Proof/Laws/Bus.lean ====
section
/-! SUPPORT. What the parts of a step over a bus do, said once: reads and writes over the plain buffer and over any bus,
the bytes a buffer holds, and the instruction that is left once its pointer is read. -/

namespace Sys2Proof.Machine

/-! ### Registers and memory apart -/

@[simp] theorem State.registers_over (s : State) : s.registers.over s.mem = s := rfl
@[simp] theorem Registers.over_registers (r : Registers) (m : Memory) : (r.over m).registers = r := rfl
@[simp] theorem Registers.over_mem (r : Registers) (m : Memory) : (r.over m).mem = m := rfl
@[simp] theorem Registers.over_pc (r : Registers) (m : Memory) : (r.over m).pc = r.pc := rfl

theorem Registers.given_eq (r : Registers) (bytes : List (Addr × Byte)) : r.given bytes = r.over (Memory.holding bytes) := rfl

/-! ### The two buses of the model -/

@[simp] theorem Bus.plain_readByte (addr : Addr) (m : Memory) : Bus.plain.readByte addr m = (m.read addr, m) := rfl
@[simp] theorem Bus.plain_writeByte (addr : Addr) (v : Byte) (m : Memory) :
    Bus.plain.writeByte addr v m = m.write addr v := rfl
@[simp] theorem Bus.scripted_readByte (addr : Addr) (v : Byte) (rest : List Byte) (log : List Access) :
    Bus.scripted.readByte addr { inputs := v :: rest, log := log } =
      (v, { inputs := rest, log := log ++ [.read addr] }) := rfl
@[simp] theorem Bus.scripted_writeByte (addr : Addr) (v : Byte) (c : Script) :
    Bus.scripted.writeByte addr v c = { c with log := c.log ++ [.write addr v] } := rfl

/-! ### Runs of accesses -/

theorem Bus.readAll_append {μ : Type} (bus : Bus μ) (l l' : List Addr) (h : μ) :
    bus.readAll (l ++ l') h =
      ((bus.readAll l h).1 ++ (bus.readAll l' (bus.readAll l h).2).1, (bus.readAll l' (bus.readAll l h).2).2) := by
  induction l generalizing h with
  | nil => rfl
  | cons addr l ih => simp [Bus.readAll, ih]

theorem Bus.replay_append {μ : Type} (bus : Bus μ) (l l' : List Access) (h : μ) :
    bus.replay (l ++ l') h = bus.replay l' (bus.replay l h) := by
  induction l generalizing h with
  | nil => rfl
  | cons access l ih => cases access <;> exact ih _

theorem Bus.answers_append {μ : Type} (bus : Bus μ) (l l' : List Access) (h : μ) :
    bus.answers (l ++ l') h = bus.answers l h ++ bus.answers l' (bus.replay l h) := by
  induction l generalizing h with
  | nil => rfl
  | cons access l ih => cases access <;> simp [Bus.answers, Bus.replay, ih]

/-- Reads in a row are the replay of those reads, and the bytes are its answers, each beside its address. -/
theorem Bus.readAll_eq {μ : Type} (bus : Bus μ) (l : List Addr) (h : μ) :
    bus.readAll l h = (l.zip (bus.answers (l.map .read) h), bus.replay (l.map .read) h) := by
  induction l generalizing h with
  | nil => rfl
  | cons addr l ih => simp [Bus.readAll, Bus.answers, Bus.replay, ih]

/-- Writes in a row are the replay of those writes. -/
theorem Bus.writeAll_eq {μ : Type} (bus : Bus μ) (l : List (Addr × Byte)) (h : μ) :
    bus.writeAll l h = bus.replay (l.map fun c => .write c.1 c.2) h := by
  induction l generalizing h with
  | nil => rfl
  | cons c l ih => exact ih _

/-- Reads over the plain buffer give its bytes and leave it as it is (R42). -/
@[simp] theorem Bus.readAll_plain (l : List Addr) (m : Memory) :
    Bus.plain.readAll l m = (l.map fun addr => (addr, m.read addr), m) := by
  induction l with
  | nil => rfl
  | cons addr l ih => simp [Bus.readAll, ih]

/-- Accesses over the plain buffer do to it what they do to memory (R42, R43). -/
theorem Bus.replay_plain (l : List Access) (m : Memory) : Bus.plain.replay l m = l.foldl Access.apply m := by
  induction l generalizing m with
  | nil => rfl
  | cons access l ih => cases access <;> exact ih _

/-- Reads answered from bytes given beforehand: each takes the next one, and is recorded. -/
theorem Bus.readAll_scripted (l : List Addr) (bytes rest : List Byte) (log : List Access)
    (enough : bytes.length = l.length) :
    Bus.scripted.readAll l { inputs := bytes ++ rest, log := log } =
      (l.zip bytes, { inputs := rest, log := log ++ l.map .read }) := by
  induction l generalizing bytes log with
  | nil => simp_all [Bus.readAll]
  | cons addr l ih =>
    obtain _ | ⟨v, bytes⟩ := bytes
    · simp at enough
    · simp [Bus.readAll, ih bytes _ (by simpa using enough)]

/-- Writes over the scripted bus are recorded and take no byte. -/
theorem Bus.writeAll_scripted (l : List (Addr × Byte)) (c : Script) :
    Bus.scripted.writeAll l c = { c with log := c.log ++ l.map fun cell => .write cell.1 cell.2 } := by
  induction l generalizing c with
  | nil => simp [Bus.writeAll]
  | cons cell l ih => simp [Bus.writeAll, ih]

/-! ### The bytes a buffer holds -/

/-- The buffer that holds a memory's bytes at some addresses reads as that memory there. -/
theorem Memory.read_holding (m : Memory) (l : List Addr) {addr : Addr} (listed : addr ∈ l) :
    (Memory.holding (l.map fun a => (a, m.read a))).read addr = m.read addr := by
  have run : ∀ (l : List Addr) (b : Memory), (addr ∈ l ∨ b.read addr = m.read addr) →
      ((l.map fun a => (a, m.read a)).foldl (fun b cell => Memory.write b cell.1 cell.2) b).read addr = m.read addr := by
    intro l
    induction l with
    | nil => intro b h; simpa using h
    | cons a l ih =>
      intro b h
      refine ih _ ?_
      by_cases here : addr = a
      · exact .inr (by simp [here])
      · refine h.imp (fun g => ?_) fun g => ?_
        · simpa [here] using g
        · rw [Memory.read_write_other _ _ here, g]
  exact run l [] (.inl listed)

/-! ### The instruction left once its pointer is read -/

/-- It has the meaning of the instruction in every state. -/
theorem exec_resolved (i : Instr) (s : State) : exec (s.resolved i) s = exec i s := by cases i <;> rfl

/-- It has no pointer to read. -/
theorem resolved_pointerAccesses (i : Instr) (s t : State) : t.operandPointerAccesses (s.resolved i).operand = [] := by
  cases i <;> rfl

/-- It makes the data and stack accesses of the instruction. -/
theorem resolved_ruleAccesses (i : Instr) (s : State) :
    s.ruleAccesses i = s.operandPointerAccesses i.operand ++ s.ruleAccesses (s.resolved i) := by cases i <;> rfl

end Sys2Proof.Machine
end

