-- ==== Sys2Proof/Laws/Exec.lean ====
section
/-! SUPPORT. What an instruction rule can do, said once: one equation per shared operation, then the inversion of `exec`
by the state it answers, with the consequences every invariant needs. -/

namespace Sys2Proof.Machine

/-! ### The shared operations -/

theorem accumulateOra_eq (m : Byte) (s : State) : accumulateOra m s = .next (s.assignA (s.a ||| m)) := rfl

theorem accumulateAnd_eq (m : Byte) (s : State) : accumulateAnd m s = .next (s.assignA (s.a &&& m)) := rfl

theorem accumulateEor_eq (m : Byte) (s : State) : accumulateEor m s = .next (s.assignA (s.a ^^^ m)) := rfl

theorem testBits_eq (m : Byte) (s : State) : testBits m s = .next (s.withFlags (s.flags.bitTest s.a m)) := rfl

theorem shiftA_eq (f : Byte → Bool → Byte × Bool) (s : State) :
    shiftA f s = .next ((s.withFlags (s.flags.shifted (f s.a s.flags.c))).withA (f s.a s.flags.c).1) := rfl

theorem shiftMem_eq (f : Byte → Bool → Byte × Bool) (o : MemOperand) (s : State) :
    shiftMem f o s =
      .next ((s.withFlags (s.flags.shifted (f (s.load o) s.flags.c))).write (s.ea o) (f (s.load o) s.flags.c).1) := rfl

theorem assignSum_eq (t : Sum) (s : State) :
    assignSum t s = .next ((s.withA t.r).withFlags (s.flags.summed t)) := rfl

theorem compareWith_eq (reg m : Byte) (s : State) :
    compareWith reg m s = .next (s.withFlags (s.flags.compare reg m)) := rfl

theorem adjustMem_eq (d : Byte) (o : MemOperand) (s : State) :
    adjustMem d o s =
      .next ((s.write (s.ea o) (s.load o + d)).withFlags (s.flags.setZN (s.load o + d))) := rfl

theorem putFlags_eq (f : Flags) (s : State) : putFlags f s = .next (s.withFlags f) := rfl

theorem branch_eq (cond : Bool) (off : Byte) (s : State) :
    branch cond off s = .next (s.withPc (if cond then s.relTarget off else s.pc)) := rfl

theorem loadA_eq (m : Byte) (s : State) : loadA m s = .next (s.assignA m) := rfl

theorem loadX_eq (m : Byte) (s : State) : loadX m s = .next (s.assignX m) := rfl

theorem loadY_eq (m : Byte) (s : State) : loadY m s = .next (s.assignY m) := rfl

theorem storeByte_eq (v : Byte) (o : MemOperand) (s : State) :
    storeByte v o s = .next (s.write (s.ea o) v) := rfl

theorem jumpTo_eq (target : Addr) (s : State) : jumpTo target s = .next (s.withPc target) := rfl

/-! ### State writes, byte by byte -/

theorem State.read_eq (s : State) (a : Addr) : s.read a = s.mem.read a := rfl

/-- Reading after a byte write (R43). -/
theorem State.read_write (s : State) (a b : Addr) (v : Byte) :
    (s.write a v).read b = if b = a then v else s.read b := Memory.read_write s.mem a b v

/-- Reading after a push (R48). -/
theorem State.read_push (s : State) (v : Byte) (b : Addr) :
    (s.push v).read b = if b = stackAddr s.sp then v else s.read b := Memory.read_write s.mem _ b v

/-! ### The effective addresses read nothing but X, Y and memory -/

theorem State.ea_congr {s t : State} (x : t.x = s.x) (y : t.y = s.y) (mem : t.mem = s.mem) (o : MemOperand) :
    t.ea o = s.ea o := by
  cases o <;> simp [State.ea, State.zeroPagePointer, State.read, x, y, mem]

/-- R72 as the rule writes it: the parameter's two readings of the pointer's high byte. -/
theorem indirectHighAddr_eq (wrap : Bool) (ptr : Addr) :
    indirectHighAddr wrap ptr =
      if wrap then (ptr &&& 0xFF00) ||| ((ptr + 1) &&& 0x00FF) else ptr + 1 := by
  have halves : ∀ lo hi : Byte, (joinBytes lo hi &&& 0xFF00 : Addr) = joinBytes 0 hi ∧
      (joinBytes lo hi &&& 0x00FF : Addr) = joinBytes lo 0 ∧ (joinBytes 0 hi ||| joinBytes lo 0) = joinBytes lo hi := by
    intro lo hi
    have high := BitVec.and_append (x₁ := hi) (y₁ := lo) (x₂ := BitVec.allOnes 8) (y₂ := 0#8)
    have low := BitVec.and_append (x₁ := hi) (y₁ := lo) (x₂ := 0#8) (y₂ := BitVec.allOnes 8)
    have both := BitVec.or_append (x₁ := hi) (y₁ := 0#8) (x₂ := 0#8) (y₂ := lo)
    exact ⟨high.trans (by rw [BitVec.and_allOnes, BitVec.and_zero]; rfl),
      low.trans (by rw [BitVec.and_allOnes, BitVec.and_zero]; rfl),
      both.trans (by rw [BitVec.or_zero, BitVec.zero_or]; rfl)⟩
  have split := joinBytes_low_high ptr
  have next := joinBytes_low_high (ptr + 1)
  cases wrap
  · simp [indirectHighAddr]
  · have here := lowByte_toNat ptr
    have nextLow : (lowByte (ptr + 1)).toNat = ((lowByte ptr).toNat + 1) % 256 := by simp [lowByte_toNat]
    have rowOf : (ptr &&& 0xFF00 : Addr) = joinBytes 0 (highByte ptr) := by
      rw [← split, (halves _ _).1, split]
    have column : (ptr + 1 &&& 0x00FF : Addr) = joinBytes (lowByte (ptr + 1)) 0 := by
      rw [← next, (halves _ _).2.1, next]
    rw [if_pos rfl, rowOf, column, (halves _ _).2.2]
    by_cases page : lowByte ptr = 0xFF
    · have zero : lowByte (ptr + 1) = 0 := by
        apply BitVec.eq_of_toNat_eq
        rw [nextLow, page]
        rfl
      rw [indirectHighAddr, if_pos page, if_pos rfl, rowOf, zero]
    · have inPage : highByte (ptr + 1) = highByte ptr := by
        have : (lowByte ptr).toNat ≠ 255 := fun h => page (BitVec.eq_of_toNat_eq h)
        apply BitVec.eq_of_toNat_eq
        rw [highByte_toNat, highByte_toNat, BitVec.toNat_add]
        simp
        omega
      rw [indirectHighAddr, if_neg page, ← inPage, next]

/-! ### What an instruction rule can do -/

/-- Memory after an instruction rule: as before, or with one byte written, or (JSR) with two. -/
theorem exec_mem {i : Instr} {s t : State} (h : exec i s = .next t) :
    t.mem = s.mem ∨ (∃ a v, t.mem = s.mem.write a v) ∨ ∃ a v b w, t.mem = (s.mem.write a v).write b w := by
  cases i
  case jsr addr => injection h with h; exact .inr (.inr ⟨_, _, _, _, by subst h; rfl⟩)
  case brk => cases h
  case rti => cases h
  all_goals injection h with h
  all_goals first | exact .inl (by subst h; rfl) | exact .inr (.inl ⟨_, _, by subst h; rfl⟩)

/-- Every instruction but BRK and RTI completes, from every state. -/
theorem exec_completes (i : Instr) (s : State) (notBrk : i ≠ .brk) (notRti : i ≠ .rti) :
    ∃ t, exec i s = .next t := by
  cases i <;> first | exact ⟨_, rfl⟩ | exact absurd rfl notBrk | exact absurd rfl notRti

/-- An instruction rule keeps the canonical form of memory. -/
theorem exec_wf {i : Instr} {s t : State} (h : exec i s = .next t) (w : s.mem.wf = true) : t.mem.wf = true := by
  obtain e | ⟨a, v, e⟩ | ⟨a, v, b, x, e⟩ := exec_mem h <;> rw [e]
  · exact w
  · exact Memory.wf_write _ _ w
  · exact Memory.wf_write _ _ (Memory.wf_write _ _ w)

end Sys2Proof.Machine
end

