-- ==== Sys2Proof/Laws/PerInstr.lean ====
section
/-! SUPPORT. A statement for all instructions, made per instruction: the instruction is well-formed, and its encoding
is as long as its mode says. -/

namespace Sys2Proof.Laws.WellFormedLength

/-- The instruction is well-formed, and its encoding has the length of its mode (R61). -/
def Statement (i : Instr) : Prop := i.wf = true ∧ (encode i).length = i.length

theorem oraImm (v : Byte) : Statement (.oraImm v) := ⟨rfl, rfl⟩
theorem oraZp (zp : Byte) : Statement (.oraZp zp) := ⟨rfl, rfl⟩
theorem oraZpx (zp : Byte) : Statement (.oraZpx zp) := ⟨rfl, rfl⟩
theorem oraAbs (addr : Addr) : Statement (.oraAbs addr) := ⟨rfl, rfl⟩
theorem oraAbsx (addr : Addr) : Statement (.oraAbsx addr) := ⟨rfl, rfl⟩
theorem oraAbsy (addr : Addr) : Statement (.oraAbsy addr) := ⟨rfl, rfl⟩
theorem oraIzx (zp : Byte) : Statement (.oraIzx zp) := ⟨rfl, rfl⟩
theorem oraIzy (zp : Byte) : Statement (.oraIzy zp) := ⟨rfl, rfl⟩
theorem andImm (v : Byte) : Statement (.andImm v) := ⟨rfl, rfl⟩
theorem andZp (zp : Byte) : Statement (.andZp zp) := ⟨rfl, rfl⟩
theorem andZpx (zp : Byte) : Statement (.andZpx zp) := ⟨rfl, rfl⟩
theorem andAbs (addr : Addr) : Statement (.andAbs addr) := ⟨rfl, rfl⟩
theorem andAbsx (addr : Addr) : Statement (.andAbsx addr) := ⟨rfl, rfl⟩
theorem andAbsy (addr : Addr) : Statement (.andAbsy addr) := ⟨rfl, rfl⟩
theorem andIzx (zp : Byte) : Statement (.andIzx zp) := ⟨rfl, rfl⟩
theorem andIzy (zp : Byte) : Statement (.andIzy zp) := ⟨rfl, rfl⟩
theorem eorImm (v : Byte) : Statement (.eorImm v) := ⟨rfl, rfl⟩
theorem eorZp (zp : Byte) : Statement (.eorZp zp) := ⟨rfl, rfl⟩
theorem eorZpx (zp : Byte) : Statement (.eorZpx zp) := ⟨rfl, rfl⟩
theorem eorAbs (addr : Addr) : Statement (.eorAbs addr) := ⟨rfl, rfl⟩
theorem eorAbsx (addr : Addr) : Statement (.eorAbsx addr) := ⟨rfl, rfl⟩
theorem eorAbsy (addr : Addr) : Statement (.eorAbsy addr) := ⟨rfl, rfl⟩
theorem eorIzx (zp : Byte) : Statement (.eorIzx zp) := ⟨rfl, rfl⟩
theorem eorIzy (zp : Byte) : Statement (.eorIzy zp) := ⟨rfl, rfl⟩
theorem bitZp (zp : Byte) : Statement (.bitZp zp) := ⟨rfl, rfl⟩
theorem bitAbs (addr : Addr) : Statement (.bitAbs addr) := ⟨rfl, rfl⟩
theorem aslAcc : Statement .aslAcc := ⟨rfl, rfl⟩
theorem aslZp (zp : Byte) : Statement (.aslZp zp) := ⟨rfl, rfl⟩
theorem aslZpx (zp : Byte) : Statement (.aslZpx zp) := ⟨rfl, rfl⟩
theorem aslAbs (addr : Addr) : Statement (.aslAbs addr) := ⟨rfl, rfl⟩
theorem aslAbsx (addr : Addr) : Statement (.aslAbsx addr) := ⟨rfl, rfl⟩
theorem lsrAcc : Statement .lsrAcc := ⟨rfl, rfl⟩
theorem lsrZp (zp : Byte) : Statement (.lsrZp zp) := ⟨rfl, rfl⟩
theorem lsrZpx (zp : Byte) : Statement (.lsrZpx zp) := ⟨rfl, rfl⟩
theorem lsrAbs (addr : Addr) : Statement (.lsrAbs addr) := ⟨rfl, rfl⟩
theorem lsrAbsx (addr : Addr) : Statement (.lsrAbsx addr) := ⟨rfl, rfl⟩
theorem rolAcc : Statement .rolAcc := ⟨rfl, rfl⟩
theorem rolZp (zp : Byte) : Statement (.rolZp zp) := ⟨rfl, rfl⟩
theorem rolZpx (zp : Byte) : Statement (.rolZpx zp) := ⟨rfl, rfl⟩
theorem rolAbs (addr : Addr) : Statement (.rolAbs addr) := ⟨rfl, rfl⟩
theorem rolAbsx (addr : Addr) : Statement (.rolAbsx addr) := ⟨rfl, rfl⟩
theorem rorAcc : Statement .rorAcc := ⟨rfl, rfl⟩
theorem rorZp (zp : Byte) : Statement (.rorZp zp) := ⟨rfl, rfl⟩
theorem rorZpx (zp : Byte) : Statement (.rorZpx zp) := ⟨rfl, rfl⟩
theorem rorAbs (addr : Addr) : Statement (.rorAbs addr) := ⟨rfl, rfl⟩
theorem rorAbsx (addr : Addr) : Statement (.rorAbsx addr) := ⟨rfl, rfl⟩
theorem adcImm (v : Byte) : Statement (.adcImm v) := ⟨rfl, rfl⟩
theorem adcZp (zp : Byte) : Statement (.adcZp zp) := ⟨rfl, rfl⟩
theorem adcZpx (zp : Byte) : Statement (.adcZpx zp) := ⟨rfl, rfl⟩
theorem adcAbs (addr : Addr) : Statement (.adcAbs addr) := ⟨rfl, rfl⟩
theorem adcAbsx (addr : Addr) : Statement (.adcAbsx addr) := ⟨rfl, rfl⟩
theorem adcAbsy (addr : Addr) : Statement (.adcAbsy addr) := ⟨rfl, rfl⟩
theorem adcIzx (zp : Byte) : Statement (.adcIzx zp) := ⟨rfl, rfl⟩
theorem adcIzy (zp : Byte) : Statement (.adcIzy zp) := ⟨rfl, rfl⟩
theorem sbcImm (v : Byte) : Statement (.sbcImm v) := ⟨rfl, rfl⟩
theorem sbcZp (zp : Byte) : Statement (.sbcZp zp) := ⟨rfl, rfl⟩
theorem sbcZpx (zp : Byte) : Statement (.sbcZpx zp) := ⟨rfl, rfl⟩
theorem sbcAbs (addr : Addr) : Statement (.sbcAbs addr) := ⟨rfl, rfl⟩
theorem sbcAbsx (addr : Addr) : Statement (.sbcAbsx addr) := ⟨rfl, rfl⟩
theorem sbcAbsy (addr : Addr) : Statement (.sbcAbsy addr) := ⟨rfl, rfl⟩
theorem sbcIzx (zp : Byte) : Statement (.sbcIzx zp) := ⟨rfl, rfl⟩
theorem sbcIzy (zp : Byte) : Statement (.sbcIzy zp) := ⟨rfl, rfl⟩
theorem cmpImm (v : Byte) : Statement (.cmpImm v) := ⟨rfl, rfl⟩
theorem cmpZp (zp : Byte) : Statement (.cmpZp zp) := ⟨rfl, rfl⟩
theorem cmpZpx (zp : Byte) : Statement (.cmpZpx zp) := ⟨rfl, rfl⟩
theorem cmpAbs (addr : Addr) : Statement (.cmpAbs addr) := ⟨rfl, rfl⟩
theorem cmpAbsx (addr : Addr) : Statement (.cmpAbsx addr) := ⟨rfl, rfl⟩
theorem cmpAbsy (addr : Addr) : Statement (.cmpAbsy addr) := ⟨rfl, rfl⟩
theorem cmpIzx (zp : Byte) : Statement (.cmpIzx zp) := ⟨rfl, rfl⟩
theorem cmpIzy (zp : Byte) : Statement (.cmpIzy zp) := ⟨rfl, rfl⟩
theorem cpxImm (v : Byte) : Statement (.cpxImm v) := ⟨rfl, rfl⟩
theorem cpxZp (zp : Byte) : Statement (.cpxZp zp) := ⟨rfl, rfl⟩
theorem cpxAbs (addr : Addr) : Statement (.cpxAbs addr) := ⟨rfl, rfl⟩
theorem cpyImm (v : Byte) : Statement (.cpyImm v) := ⟨rfl, rfl⟩
theorem cpyZp (zp : Byte) : Statement (.cpyZp zp) := ⟨rfl, rfl⟩
theorem cpyAbs (addr : Addr) : Statement (.cpyAbs addr) := ⟨rfl, rfl⟩
theorem incZp (zp : Byte) : Statement (.incZp zp) := ⟨rfl, rfl⟩
theorem incZpx (zp : Byte) : Statement (.incZpx zp) := ⟨rfl, rfl⟩
theorem incAbs (addr : Addr) : Statement (.incAbs addr) := ⟨rfl, rfl⟩
theorem incAbsx (addr : Addr) : Statement (.incAbsx addr) := ⟨rfl, rfl⟩
theorem decZp (zp : Byte) : Statement (.decZp zp) := ⟨rfl, rfl⟩
theorem decZpx (zp : Byte) : Statement (.decZpx zp) := ⟨rfl, rfl⟩
theorem decAbs (addr : Addr) : Statement (.decAbs addr) := ⟨rfl, rfl⟩
theorem decAbsx (addr : Addr) : Statement (.decAbsx addr) := ⟨rfl, rfl⟩
theorem inx : Statement .inx := ⟨rfl, rfl⟩
theorem iny : Statement .iny := ⟨rfl, rfl⟩
theorem dex : Statement .dex := ⟨rfl, rfl⟩
theorem dey : Statement .dey := ⟨rfl, rfl⟩
theorem clc : Statement .clc := ⟨rfl, rfl⟩
theorem sec : Statement .sec := ⟨rfl, rfl⟩
theorem cli : Statement .cli := ⟨rfl, rfl⟩
theorem sei : Statement .sei := ⟨rfl, rfl⟩
theorem cld : Statement .cld := ⟨rfl, rfl⟩
theorem sed : Statement .sed := ⟨rfl, rfl⟩
theorem clv : Statement .clv := ⟨rfl, rfl⟩
theorem bpl (off : Byte) : Statement (.bpl off) := ⟨rfl, rfl⟩
theorem bmi (off : Byte) : Statement (.bmi off) := ⟨rfl, rfl⟩
theorem bvc (off : Byte) : Statement (.bvc off) := ⟨rfl, rfl⟩
theorem bvs (off : Byte) : Statement (.bvs off) := ⟨rfl, rfl⟩
theorem bcc (off : Byte) : Statement (.bcc off) := ⟨rfl, rfl⟩
theorem bcs (off : Byte) : Statement (.bcs off) := ⟨rfl, rfl⟩
theorem bne (off : Byte) : Statement (.bne off) := ⟨rfl, rfl⟩
theorem beq (off : Byte) : Statement (.beq off) := ⟨rfl, rfl⟩
theorem ldaImm (v : Byte) : Statement (.ldaImm v) := ⟨rfl, rfl⟩
theorem ldaZp (zp : Byte) : Statement (.ldaZp zp) := ⟨rfl, rfl⟩
theorem ldaZpx (zp : Byte) : Statement (.ldaZpx zp) := ⟨rfl, rfl⟩
theorem ldaAbs (addr : Addr) : Statement (.ldaAbs addr) := ⟨rfl, rfl⟩
theorem ldaAbsx (addr : Addr) : Statement (.ldaAbsx addr) := ⟨rfl, rfl⟩
theorem ldaAbsy (addr : Addr) : Statement (.ldaAbsy addr) := ⟨rfl, rfl⟩
theorem ldaIzx (zp : Byte) : Statement (.ldaIzx zp) := ⟨rfl, rfl⟩
theorem ldaIzy (zp : Byte) : Statement (.ldaIzy zp) := ⟨rfl, rfl⟩
theorem ldxImm (v : Byte) : Statement (.ldxImm v) := ⟨rfl, rfl⟩
theorem ldxZp (zp : Byte) : Statement (.ldxZp zp) := ⟨rfl, rfl⟩
theorem ldxZpy (zp : Byte) : Statement (.ldxZpy zp) := ⟨rfl, rfl⟩
theorem ldxAbs (addr : Addr) : Statement (.ldxAbs addr) := ⟨rfl, rfl⟩
theorem ldxAbsy (addr : Addr) : Statement (.ldxAbsy addr) := ⟨rfl, rfl⟩
theorem ldyImm (v : Byte) : Statement (.ldyImm v) := ⟨rfl, rfl⟩
theorem ldyZp (zp : Byte) : Statement (.ldyZp zp) := ⟨rfl, rfl⟩
theorem ldyZpx (zp : Byte) : Statement (.ldyZpx zp) := ⟨rfl, rfl⟩
theorem ldyAbs (addr : Addr) : Statement (.ldyAbs addr) := ⟨rfl, rfl⟩
theorem ldyAbsx (addr : Addr) : Statement (.ldyAbsx addr) := ⟨rfl, rfl⟩
theorem staZp (zp : Byte) : Statement (.staZp zp) := ⟨rfl, rfl⟩
theorem staZpx (zp : Byte) : Statement (.staZpx zp) := ⟨rfl, rfl⟩
theorem staAbs (addr : Addr) : Statement (.staAbs addr) := ⟨rfl, rfl⟩
theorem staAbsx (addr : Addr) : Statement (.staAbsx addr) := ⟨rfl, rfl⟩
theorem staAbsy (addr : Addr) : Statement (.staAbsy addr) := ⟨rfl, rfl⟩
theorem staIzx (zp : Byte) : Statement (.staIzx zp) := ⟨rfl, rfl⟩
theorem staIzy (zp : Byte) : Statement (.staIzy zp) := ⟨rfl, rfl⟩
theorem stxZp (zp : Byte) : Statement (.stxZp zp) := ⟨rfl, rfl⟩
theorem stxZpy (zp : Byte) : Statement (.stxZpy zp) := ⟨rfl, rfl⟩
theorem stxAbs (addr : Addr) : Statement (.stxAbs addr) := ⟨rfl, rfl⟩
theorem styZp (zp : Byte) : Statement (.styZp zp) := ⟨rfl, rfl⟩
theorem styZpx (zp : Byte) : Statement (.styZpx zp) := ⟨rfl, rfl⟩
theorem styAbs (addr : Addr) : Statement (.styAbs addr) := ⟨rfl, rfl⟩
theorem tax : Statement .tax := ⟨rfl, rfl⟩
theorem tay : Statement .tay := ⟨rfl, rfl⟩
theorem txa : Statement .txa := ⟨rfl, rfl⟩
theorem tya : Statement .tya := ⟨rfl, rfl⟩
theorem tsx : Statement .tsx := ⟨rfl, rfl⟩
theorem txs : Statement .txs := ⟨rfl, rfl⟩
theorem pha : Statement .pha := ⟨rfl, rfl⟩
theorem pla : Statement .pla := ⟨rfl, rfl⟩
theorem php : Statement .php := ⟨rfl, rfl⟩
theorem plp : Statement .plp := ⟨rfl, rfl⟩
theorem jmpAbs (addr : Addr) : Statement (.jmpAbs addr) := ⟨rfl, rfl⟩
theorem jmpInd (ptr : Addr) : Statement (.jmpInd ptr) := ⟨rfl, rfl⟩
theorem jsr (addr : Addr) : Statement (.jsr addr) := ⟨rfl, rfl⟩
theorem rts : Statement .rts := ⟨rfl, rfl⟩
theorem brk : Statement .brk := ⟨rfl, rfl⟩
theorem rti : Statement .rti := ⟨rfl, rfl⟩
theorem nop : Statement .nop := ⟨rfl, rfl⟩

end Sys2Proof.Laws.WellFormedLength
end

