-- ==== Sys2Proof/Tests/Slice0.lean ====
section
/-! SUPPORT. Tests. Expected values come from 95_test_vectors.md (each test names its vector) or are worked by hand from
the rule named; then, for every statement with hypotheses, a witness that meets them. -/

namespace Sys2Proof.Tests

open Sys2Proof.Machine

/-! ### Helpers -/

/-- The core with `code` at PC = 0x8000, SP = 0xFF, and every other register, flag and byte zero. -/
def cpu (code : List Byte) : State := (State.reset.withPc 0x8000).writeBytes 0x8000 code

/-- N, V, Z and C as given, B, D and I clear. -/
def nvzc (n v z c : Bool) : Flags := ((((Flags.construct Config.resetRegs).setN n).setV v).setZ z).setC c

/-- The seven flags all clear or all set. -/
def allFlags (b : Bool) : Flags := { n := b, v := b, u := .fixed, b := b, d := b, i := b, z := b, c := b }

/-- Whether a step completes with `p`. -/
def after (s : State) (p : State → Bool) : Bool :=
  match step s with
  | .next t => p t
  | .fault _ | .refused _ => false

/-- Whether a step stops with the error. -/
def stopsWith (s : State) (e : Fault) : Bool :=
  match step s with
  | .fault f => f == e
  | .next _ | .refused _ => false

/-- Whether every listed encoding decodes to the instruction beside it, with nothing left over. -/
def decodesAll (table : List (List Byte × Instr)) : Bool :=
  table.all fun row =>
    match decode row.1 with
    | .ok (i, []) => i == row.2
    | .ok (_, _ :: _) | .error _ => false

/-! ### Well-formed forms: accepted and refused pairs of mnemonic and mode (30_encoding.md section 7) -/

theorem test_wf_accepts_rows_of_the_table :
    formExists .sta .izx = true ∧ formExists .ldx .zpy = true ∧ formExists .jmp .ind = true ∧
    formExists .asl .acc = true ∧ formExists .bne .rel = true := by decide

theorem test_wf_refuses_store_immediate : formExists .sta .imm = false := by decide

theorem test_wf_refuses_ldx_indexed_by_x : formExists .ldx .zpx = false ∧ formExists .ldx .absx = false := by decide

theorem test_wf_refuses_jsr_indirect : formExists .jsr .ind = false := by decide

theorem test_wf_refuses_inc_accumulator : formExists .inc .acc = false ∧ formExists .inc .absy = false := by decide

theorem test_wf_counts_the_rows : (Mnemonic.modes .lda).length + (Mnemonic.modes .sta).length = 15 := by decide

/-! ### Decoding: every row of opcode_table.json, its opcode written out in bits, with operand bytes that show which
byte goes where -/

/-- 40_logic.md. -/
theorem test_decode_logic :
    decodesAll [([0b00001001, 0x8F], .oraImm 0x8F), ([0b00000101, 0x8F], .oraZp 0x8F),
      ([0b00010101, 0x8F], .oraZpx 0x8F), ([0b00001101, 0xCD, 0x2B], .oraAbs 0x2BCD),
      ([0b00011101, 0xCD, 0x2B], .oraAbsx 0x2BCD), ([0b00011001, 0xCD, 0x2B], .oraAbsy 0x2BCD),
      ([0b00000001, 0x8F], .oraIzx 0x8F), ([0b00010001, 0x8F], .oraIzy 0x8F)] = true ∧
    decodesAll [([0b00101001, 0x8F], .andImm 0x8F), ([0b00100101, 0x8F], .andZp 0x8F),
      ([0b00110101, 0x8F], .andZpx 0x8F), ([0b00101101, 0xCD, 0x2B], .andAbs 0x2BCD),
      ([0b00111101, 0xCD, 0x2B], .andAbsx 0x2BCD), ([0b00111001, 0xCD, 0x2B], .andAbsy 0x2BCD),
      ([0b00100001, 0x8F], .andIzx 0x8F), ([0b00110001, 0x8F], .andIzy 0x8F)] = true ∧
    decodesAll [([0b01001001, 0x8F], .eorImm 0x8F), ([0b01000101, 0x8F], .eorZp 0x8F),
      ([0b01010101, 0x8F], .eorZpx 0x8F), ([0b01001101, 0xCD, 0x2B], .eorAbs 0x2BCD),
      ([0b01011101, 0xCD, 0x2B], .eorAbsx 0x2BCD), ([0b01011001, 0xCD, 0x2B], .eorAbsy 0x2BCD),
      ([0b01000001, 0x8F], .eorIzx 0x8F), ([0b01010001, 0x8F], .eorIzy 0x8F)] = true ∧
    decodesAll [([0b00100100, 0x8F], .bitZp 0x8F), ([0b00101100, 0xCD, 0x2B], .bitAbs 0x2BCD)] = true := by decide

/-- 41_shift_rotate.md. -/
theorem test_decode_shift :
    decodesAll [([0b00001010], .aslAcc), ([0b00000110, 0x8F], .aslZp 0x8F), ([0b00010110, 0x8F], .aslZpx 0x8F),
      ([0b00001110, 0xCD, 0x2B], .aslAbs 0x2BCD), ([0b00011110, 0xCD, 0x2B], .aslAbsx 0x2BCD)] = true ∧
    decodesAll [([0b01001010], .lsrAcc), ([0b01000110, 0x8F], .lsrZp 0x8F), ([0b01010110, 0x8F], .lsrZpx 0x8F),
      ([0b01001110, 0xCD, 0x2B], .lsrAbs 0x2BCD), ([0b01011110, 0xCD, 0x2B], .lsrAbsx 0x2BCD)] = true ∧
    decodesAll [([0b00101010], .rolAcc), ([0b00100110, 0x8F], .rolZp 0x8F), ([0b00110110, 0x8F], .rolZpx 0x8F),
      ([0b00101110, 0xCD, 0x2B], .rolAbs 0x2BCD), ([0b00111110, 0xCD, 0x2B], .rolAbsx 0x2BCD)] = true ∧
    decodesAll [([0b01101010], .rorAcc), ([0b01100110, 0x8F], .rorZp 0x8F), ([0b01110110, 0x8F], .rorZpx 0x8F),
      ([0b01101110, 0xCD, 0x2B], .rorAbs 0x2BCD), ([0b01111110, 0xCD, 0x2B], .rorAbsx 0x2BCD)] = true := by decide

/-- 42_arithmetic.md. -/
theorem test_decode_arithmetic :
    decodesAll [([0b01101001, 0x8F], .adcImm 0x8F), ([0b01100101, 0x8F], .adcZp 0x8F),
      ([0b01110101, 0x8F], .adcZpx 0x8F), ([0b01101101, 0xCD, 0x2B], .adcAbs 0x2BCD),
      ([0b01111101, 0xCD, 0x2B], .adcAbsx 0x2BCD), ([0b01111001, 0xCD, 0x2B], .adcAbsy 0x2BCD),
      ([0b01100001, 0x8F], .adcIzx 0x8F), ([0b01110001, 0x8F], .adcIzy 0x8F)] = true ∧
    decodesAll [([0b11101001, 0x8F], .sbcImm 0x8F), ([0b11100101, 0x8F], .sbcZp 0x8F),
      ([0b11110101, 0x8F], .sbcZpx 0x8F), ([0b11101101, 0xCD, 0x2B], .sbcAbs 0x2BCD),
      ([0b11111101, 0xCD, 0x2B], .sbcAbsx 0x2BCD), ([0b11111001, 0xCD, 0x2B], .sbcAbsy 0x2BCD),
      ([0b11100001, 0x8F], .sbcIzx 0x8F), ([0b11110001, 0x8F], .sbcIzy 0x8F)] = true := by decide

/-- 43_compare.md. -/
theorem test_decode_compare :
    decodesAll [([0b11001001, 0x8F], .cmpImm 0x8F), ([0b11000101, 0x8F], .cmpZp 0x8F),
      ([0b11010101, 0x8F], .cmpZpx 0x8F), ([0b11001101, 0xCD, 0x2B], .cmpAbs 0x2BCD),
      ([0b11011101, 0xCD, 0x2B], .cmpAbsx 0x2BCD), ([0b11011001, 0xCD, 0x2B], .cmpAbsy 0x2BCD),
      ([0b11000001, 0x8F], .cmpIzx 0x8F), ([0b11010001, 0x8F], .cmpIzy 0x8F)] = true ∧
    decodesAll [([0b11100000, 0x8F], .cpxImm 0x8F), ([0b11100100, 0x8F], .cpxZp 0x8F),
      ([0b11101100, 0xCD, 0x2B], .cpxAbs 0x2BCD)] = true ∧
    decodesAll [([0b11000000, 0x8F], .cpyImm 0x8F), ([0b11000100, 0x8F], .cpyZp 0x8F),
      ([0b11001100, 0xCD, 0x2B], .cpyAbs 0x2BCD)] = true := by decide

/-- 44_inc_dec.md. -/
theorem test_decode_inc_dec :
    decodesAll [([0b11100110, 0x8F], .incZp 0x8F), ([0b11110110, 0x8F], .incZpx 0x8F),
      ([0b11101110, 0xCD, 0x2B], .incAbs 0x2BCD), ([0b11111110, 0xCD, 0x2B], .incAbsx 0x2BCD)] = true ∧
    decodesAll [([0b11000110, 0x8F], .decZp 0x8F), ([0b11010110, 0x8F], .decZpx 0x8F),
      ([0b11001110, 0xCD, 0x2B], .decAbs 0x2BCD), ([0b11011110, 0xCD, 0x2B], .decAbsx 0x2BCD),
      ([0b11101000], .inx), ([0b11001000], .iny), ([0b11001010], .dex), ([0b10001000], .dey)] = true := by decide

/-- 45_flags.md. -/
theorem test_decode_flags :
    decodesAll [([0b00011000], .clc), ([0b00111000], .sec), ([0b01011000], .cli), ([0b01111000], .sei),
      ([0b11011000], .cld), ([0b11111000], .sed), ([0b10111000], .clv)] = true := by decide

/-- 46_branch.md. -/
theorem test_decode_branch :
    decodesAll [([0b00010000, 0x8F], .bpl 0x8F), ([0b00110000, 0x8F], .bmi 0x8F), ([0b01010000, 0x8F], .bvc 0x8F),
      ([0b01110000, 0x8F], .bvs 0x8F), ([0b10010000, 0x8F], .bcc 0x8F), ([0b10110000, 0x8F], .bcs 0x8F),
      ([0b11010000, 0x8F], .bne 0x8F), ([0b11110000, 0x8F], .beq 0x8F)] = true := by decide

/-- 47_load_store_transfer.md. -/
theorem test_decode_load :
    decodesAll [([0b10101001, 0x8F], .ldaImm 0x8F), ([0b10100101, 0x8F], .ldaZp 0x8F),
      ([0b10110101, 0x8F], .ldaZpx 0x8F), ([0b10101101, 0xCD, 0x2B], .ldaAbs 0x2BCD),
      ([0b10111101, 0xCD, 0x2B], .ldaAbsx 0x2BCD), ([0b10111001, 0xCD, 0x2B], .ldaAbsy 0x2BCD),
      ([0b10100001, 0x8F], .ldaIzx 0x8F), ([0b10110001, 0x8F], .ldaIzy 0x8F)] = true ∧
    decodesAll [([0b10100010, 0x8F], .ldxImm 0x8F), ([0b10100110, 0x8F], .ldxZp 0x8F),
      ([0b10110110, 0x8F], .ldxZpy 0x8F), ([0b10101110, 0xCD, 0x2B], .ldxAbs 0x2BCD),
      ([0b10111110, 0xCD, 0x2B], .ldxAbsy 0x2BCD)] = true ∧
    decodesAll [([0b10100000, 0x8F], .ldyImm 0x8F), ([0b10100100, 0x8F], .ldyZp 0x8F),
      ([0b10110100, 0x8F], .ldyZpx 0x8F), ([0b10101100, 0xCD, 0x2B], .ldyAbs 0x2BCD),
      ([0b10111100, 0xCD, 0x2B], .ldyAbsx 0x2BCD)] = true := by decide

/-- 47_load_store_transfer.md. -/
theorem test_decode_store :
    decodesAll [([0b10000101, 0x8F], .staZp 0x8F), ([0b10010101, 0x8F], .staZpx 0x8F),
      ([0b10001101, 0xCD, 0x2B], .staAbs 0x2BCD), ([0b10011101, 0xCD, 0x2B], .staAbsx 0x2BCD),
      ([0b10011001, 0xCD, 0x2B], .staAbsy 0x2BCD), ([0b10000001, 0x8F], .staIzx 0x8F),
      ([0b10010001, 0x8F], .staIzy 0x8F)] = true ∧
    decodesAll [([0b10000110, 0x8F], .stxZp 0x8F), ([0b10010110, 0x8F], .stxZpy 0x8F),
      ([0b10001110, 0xCD, 0x2B], .stxAbs 0x2BCD)] = true ∧
    decodesAll [([0b10000100, 0x8F], .styZp 0x8F), ([0b10010100, 0x8F], .styZpx 0x8F),
      ([0b10001100, 0xCD, 0x2B], .styAbs 0x2BCD)] = true := by decide

/-- 47_load_store_transfer.md. -/
theorem test_decode_transfer :
    decodesAll [([0b10101010], .tax), ([0b10101000], .tay), ([0b10001010], .txa), ([0b10011000], .tya),
      ([0b10111010], .tsx), ([0b10011010], .txs)] = true := by decide

/-- 48_stack.md. -/
theorem test_decode_stack :
    decodesAll [([0b01001000], .pha), ([0b01101000], .pla), ([0b00001000], .php), ([0b00101000], .plp)] = true := by decide

/-- 49_control.md. -/
theorem test_decode_control :
    decodesAll [([0b01001100, 0xCD, 0x2B], .jmpAbs 0x2BCD), ([0b01101100, 0xCD, 0x2B], .jmpInd 0x2BCD),
      ([0b00100000, 0xCD, 0x2B], .jsr 0x2BCD), ([0b01100000], .rts), ([0b00000000], .brk), ([0b01000000], .rti),
      ([0b11101010], .nop)] = true := by decide

/-- S1: 105 of the 256 opcode values are undefined. -/
theorem test_dispatch_counts :
    ((List.range 256).filter fun k => (decode [BitVec.ofNat 8 k, 0, 0]).toOption.isNone).length = 105 := by decide

/-- V-EX2, and 30_encoding.md R83: undefined opcodes are rejected by name, whatever follows. -/
theorem test_decode_rejects_undefined :
    ([0x02, 0x03, 0x1A, 0x80, 0xFF] : List Byte).all
      (fun op => match decode [op, 0xEA, 0xEA] with | .error e => e == .invalidOpcode op | .ok _ => false) = true := by
  decide

/-- A list that ends inside an instruction is no instruction (log 14). -/
theorem test_decode_truncated :
    ([[], [0xA9], [0x4C, 0x00]] : List (List Byte)).all
      (fun bs => match decode bs with | .error e => e == .truncated | .ok _ => false) = true := by decide

/-- The operand word of R64: `JMP $1234` = 4C 34 12 as a table word, bit 0 the least significant bit of the first byte. -/
theorem test_decode_table_word :
    decodeTableWord 24 0x12344C = some (.jmpAbs 0x1234) ∧ decodeTableWord 8 0x02 = none := by decide

/-- A table word placed at PC runs as the first instruction after reset (R81): `JMP $1234`. -/
theorem test_fetch_word_runs : after (State.reset.withFetchWord 24 0x12344C) (fun t => t.pc == 0x1234) = true := by decide

/-! ### One step: logic -/

/-- V-LG1. -/
theorem test_ora : after ((cpu [0x09, 0xF0]).withA 0x0F)
    (fun t => t.a == 0xFF && t.flags == nvzc true false false false && t.pc == 0x8002) = true := by decide

/-- V-LG2. -/
theorem test_and : after ((cpu [0x29, 0x0F]).withA 0xF0)
    (fun t => t.a == 0x00 && t.flags == nvzc false false true false) = true := by decide

/-- V-LG3. -/
theorem test_eor : after ((cpu [0x49, 0xFF]).withA 0xAA)
    (fun t => t.a == 0x55 && t.flags == nvzc false false false false) = true := by decide

/-- S10. -/
theorem test_bit : after ((cpu [0x24, 0x10]).write 0x0010 0xC0)
    (fun t => t.a == 0x00 && t.flags == nvzc true true true false) = true := by decide

/-- V-LG5: N and V come from the operand, not from the AND. -/
theorem test_bit_operand : after (((cpu [0x24, 0x10]).withA 0xFF).withFlags (nvzc true true false true))
    (fun t => t.a == 0xFF && t.flags == nvzc false false true true) = true := by decide

/-! ### One step: shift and rotate -/

/-- S5. -/
theorem test_asl : after ((cpu [0x0A]).withA 0x80)
    (fun t => t.a == 0x00 && t.flags == nvzc false false true true && t.pc == 0x8001) = true := by decide

/-- V-SH10: the zero-page index wraps. -/
theorem test_asl_zero_page_wrap : after (((cpu [0x16, 0xFF]).withX 0x01).write 0x0000 0x40)
    (fun t => t.read 0x0000 == 0x80 && t.flags == nvzc true false false false) = true := by decide

/-- V-SH2. -/
theorem test_lsr : after ((cpu [0x4A]).withA 0x03)
    (fun t => t.a == 0x01 && t.flags == nvzc false false false true) = true := by decide

/-- V-SH8. -/
theorem test_lsr_memory :
    after ((((cpu [0x5E, 0x00, 0x03]).withX 0x01).write 0x0301 0x80).withFlags (nvzc false false false true))
      (fun t => t.read 0x0301 == 0x40 && t.flags == nvzc false false false false) = true := by decide

/-- V-SH4. -/
theorem test_rol : after (((cpu [0x2A]).withA 0x40).withFlags (nvzc false false false true))
    (fun t => t.a == 0x81 && t.flags == nvzc true false false false) = true := by decide

/-- V-SH7. -/
theorem test_rol_memory : after ((cpu [0x26, 0x10]).write 0x0010 0x81)
    (fun t => t.read 0x0010 == 0x02 && t.flags == nvzc false false false true) = true := by decide

/-- V-SH5. -/
theorem test_ror : after (((cpu [0x6A]).withA 0x01).withFlags (nvzc false false false true))
    (fun t => t.a == 0x80 && t.flags == nvzc true false false true) = true := by decide

/-- V-SH9. -/
theorem test_ror_memory : after ((cpu [0x6E, 0x00, 0x03]).withFlags (nvzc false false false true))
    (fun t => t.read 0x0300 == 0x80 && t.flags == nvzc true false false false) = true := by decide

/-! ### One step: arithmetic -/

/-- S3. -/
theorem test_adc_overflow : after ((cpu [0x69, 0x50]).withA 0x50)
    (fun t => t.a == 0xA0 && t.flags == nvzc true true false false) = true := by decide

/-- V-AR3. -/
theorem test_adc_carry : after (((cpu [0x69, 0xFF]).withA 0xFF).withFlags (nvzc false false false true))
    (fun t => t.a == 0xFF && t.flags == nvzc true false false true) = true := by decide

/-- V-AR6: the borrow is taken in. -/
theorem test_sbc_borrow : after ((cpu [0xE9, 0x03]).withA 0x05)
    (fun t => t.a == 0x01 && t.flags == nvzc false false false true) = true := by decide

/-- V-AR9. -/
theorem test_sbc_overflow : after (((cpu [0xE9, 0xB0]).withA 0x50).withFlags (nvzc false false false true))
    (fun t => t.a == 0xA0 && t.flags == nvzc true true false false) = true := by decide

/-! ### One step: compare -/

/-- V-CP5: C is an unsigned comparison. -/
theorem test_cmp : after ((cpu [0xC9, 0x00]).withA 0x80)
    (fun t => t.a == 0x80 && t.flags == nvzc true false false true) = true := by decide

/-- V-CP1. -/
theorem test_cmp_less : after ((cpu [0xC9, 0x20]).withA 0x10)
    (fun t => t.a == 0x10 && t.flags == nvzc true false false false) = true := by decide

/-- V-CP7. -/
theorem test_cpx : after (((cpu [0xEC, 0x00, 0x03]).withX 0x05).write 0x0300 0x05)
    (fun t => t.x == 0x05 && t.flags == nvzc false false true true) = true := by decide

/-- V-CP6. -/
theorem test_cpy : after (cpu [0xC0, 0x01])
    (fun t => t.y == 0x00 && t.flags == nvzc true false false false) = true := by decide

/-! ### One step: increment and decrement -/

/-- V-ID3. -/
theorem test_inc : after ((cpu [0xE6, 0x10]).write 0x0010 0x7F)
    (fun t => t.read 0x0010 == 0x80 && t.flags == nvzc true false false false) = true := by decide

/-- V-ID4; the byte that becomes the blank byte is no longer listed (log 4). -/
theorem test_dec : after ((cpu [0xCE, 0x00, 0x03]).write 0x0300 0x01)
    (fun t => t.mem == (cpu [0xCE, 0x00, 0x03]).mem && t.flags == nvzc false false true false) = true := by decide

/-- V-ID1. -/
theorem test_inx : after (((cpu [0xE8]).withX 0xFF).withFlags (nvzc false false false true))
    (fun t => t.x == 0x00 && t.flags == nvzc false false true true) = true := by decide

/-- V-ID5. -/
theorem test_iny : after ((cpu [0xC8]).withY 0x7F)
    (fun t => t.y == 0x80 && t.flags == nvzc true false false false) = true := by decide

/-- V-ID6. -/
theorem test_dex : after ((cpu [0xCA]).withX 0x01)
    (fun t => t.x == 0x00 && t.flags == nvzc false false true false) = true := by decide

/-- V-ID2. -/
theorem test_dey : after (cpu [0x88]) (fun t => t.y == 0xFF && t.flags == nvzc true false false false) = true := by decide

/-! ### One step: flag instructions (V-FL1 to V-FL4) -/

theorem test_clc : after ((cpu [0x18]).withFlags (allFlags true))
    (fun t => t.flags == (allFlags true).setC false) = true := by decide

theorem test_clv : after ((cpu [0xB8]).withFlags (allFlags true))
    (fun t => t.flags == (allFlags true).setV false) = true := by decide

theorem test_sec : after (cpu [0x38]) (fun t => t.flags == (allFlags false).setC true) = true := by decide

theorem test_sed : after (cpu [0xF8]) (fun t => t.flags == (allFlags false).setD true) = true := by decide

theorem test_sei : after (cpu [0x78]) (fun t => t.flags == (allFlags false).setI true) = true := by decide

theorem test_cld : after ((cpu [0xD8]).withFlags (allFlags true))
    (fun t => t.flags == (allFlags true).setD false) = true := by decide

theorem test_cli : after ((cpu [0x58]).withFlags (allFlags true))
    (fun t => t.flags == (allFlags true).setI false) = true := by decide

/-! ### One step: branches -/

/-- V-BR1. -/
theorem test_bpl : after (cpu [0x10, 0x10]) (fun t => t.pc == 0x8012) = true := by decide

/-- V-BR7. -/
theorem test_bmi : after (cpu [0x30, 0x05]) (fun t => t.pc == 0x8002 && t.flags == allFlags false) = true := by decide

/-- V-BR2. -/
theorem test_bvc : after (cpu [0x50, 0x80]) (fun t => t.pc == 0x7F82) = true := by decide

/-- V-BR3. -/
theorem test_bvs : after ((cpu [0x70, 0x7F]).withFlags (nvzc false true false false)) (fun t => t.pc == 0x8081) = true := by
  decide

/-- V-BR5: the next PC wraps. -/
theorem test_bcc : after ((State.reset.withPc 0xFFFE).writeBytes 0xFFFE [0x90, 0x05]) (fun t => t.pc == 0x0005) = true := by
  decide

/-- V-BR6. -/
theorem test_bcs :
    after ((State.reset.writeBytes 0x0000 [0xB0, 0x80]).withFlags (nvzc false false false true))
      (fun t => t.pc == 0xFF82) = true := by decide

/-- S9. -/
theorem test_bne : after (cpu [0xD0, 0xFE]) (fun t => t.pc == 0x8000) = true := by decide

/-- V-BR4. -/
theorem test_beq : after (cpu [0xF0, 0xFE]) (fun t => t.pc == 0x8002) = true := by decide

/-! ### One step: load, store and transfer -/

/-- V-LS3: the zero-page pointer wraps. -/
theorem test_lda_izx :
    after (((((cpu [0xA1, 0xFE]).withX 0x01).write 0x00FF 0x34).write 0x0000 0x12).write 0x1234 0x77)
      (fun t => t.a == 0x77 && t.flags == nvzc false false false false) = true := by decide

/-- V-LS5: the 16-bit sum wraps. -/
theorem test_lda_izy :
    after (((((cpu [0xB1, 0x20]).withY 0x02).write 0x0020 0xFF).write 0x0021 0xFF).write 0x0001 0x55)
      (fun t => t.a == 0x55) = true := by decide

/-- V-LS7. -/
theorem test_ldx : after (((cpu [0xBE, 0xF0, 0x12]).withY 0x10).write 0x1300 0x80)
    (fun t => t.x == 0x80 && t.flags == nvzc true false false false) = true := by decide

/-- V-LS6. -/
theorem test_ldy : after (((cpu [0xB4, 0xF0]).withX 0x1F).withY 0x33)
    (fun t => t.y == 0x00 && t.flags == nvzc false false true false) = true := by decide

/-- V-LS8. -/
theorem test_sta : after (((cpu [0x99, 0x00, 0x03]).withY 0x05).withA 0x11)
    (fun t => t.read 0x0305 == 0x11 && t.flags == allFlags false && t.pc == 0x8003) = true := by decide

/-- V-LS1. -/
theorem test_stx : after (((cpu [0x96, 0xFF]).withX 0x07).withY 0x02)
    (fun t => t.read 0x0001 == 0x07 && t.flags == allFlags false) = true := by decide

/-- R185: `STY $nn,X`, base 0x80 and X = 0xFF as in S6. -/
theorem test_sty : after (((cpu [0x94, 0x80]).withX 0xFF).withY 0x99)
    (fun t => t.read 0x007F == 0x99 && t.read 0x017F == 0x00) = true := by decide

/-- R186: X takes A, with Z and N. -/
theorem test_tax : after ((cpu [0xAA]).withX 0x12)
    (fun t => t.x == 0x00 && t.flags == nvzc false false true false) = true := by decide

/-- V-LS11. -/
theorem test_tay : after ((cpu [0xA8]).withA 0x80)
    (fun t => t.y == 0x80 && t.flags == nvzc true false false false) = true := by decide

/-- V-LS12. -/
theorem test_txa : after ((cpu [0x8A]).withA 0x80)
    (fun t => t.a == 0x00 && t.flags == nvzc false false true false) = true := by decide

/-- R189: A takes Y, with Z and N. -/
theorem test_tya : after ((cpu [0x98]).withY 0xC3)
    (fun t => t.a == 0xC3 && t.flags == nvzc true false false false) = true := by decide

/-- V-LS10. -/
theorem test_tsx : after (cpu [0xBA]) (fun t => t.x == 0xFF && t.flags == nvzc true false false false) = true := by decide

/-- V-LS9. -/
theorem test_txs : after ((cpu [0x9A]).withFlags (nvzc true true false true))
    (fun t => t.sp == 0x00 && t.flags == nvzc true true false true) = true := by decide

/-! ### One step: stack -/

/-- V-ST1. -/
theorem test_pha : after (((cpu [0x48]).withA 0x42).withSp 0x00)
    (fun t => t.read 0x0100 == 0x42 && t.sp == 0xFF) = true := by decide

/-- V-ST2. -/
theorem test_pla : after ((cpu [0x68]).write 0x0100 0x80)
    (fun t => t.sp == 0x00 && t.a == 0x80 && t.flags == nvzc true false false false) = true := by decide

/-- V-ST3. -/
theorem test_php : after ((cpu [0x08]).withFlags ((nvzc true false true true).setD true))
    (fun t => t.read 0x01FF == 0xAB && t.sp == 0xFE && t.flags == (nvzc true false true true).setD true) = true := by decide

/-- V-ST4: U still reads 1. -/
theorem test_plp_zero : after (((cpu [0x28]).withSp 0xFE).withFlags (nvzc true false true false))
    (fun t => t.sp == 0xFF && t.flags == allFlags false && t.flags.uValue) = true := by decide

/-- V-ST5. -/
theorem test_plp_ones : after (((cpu [0x28]).withSp 0xFE).write 0x01FF 0xFF)
    (fun t => t.flags == allFlags true) = true := by decide

/-! ### One step: control -/

/-- R210: `JMP $1234`, low byte first (R64). -/
theorem test_jmp : after (cpu [0x4C, 0x34, 0x12]) (fun t => t.pc == 0x1234) = true := by decide

/-- V-CT3 and V-CT4: the target for either value of JmpIndirectPageWrap. -/
theorem test_jmp_indirect_at_page_end :
    let s := (((cpu []).write 0xFFFF 0x34).write 0x0000 0x12).write 0xFF00 0x56
    s.eaIndirectWith false 0xFFFF = 0x1234 ∧ s.eaIndirectWith true 0xFFFF = 0x5634 := by decide

/-- V-CT2: with the pointer inside a page the step's target does not depend on the parameter. -/
theorem test_jmp_indirect : after (((cpu [0x6C, 0x00, 0x03]).write 0x0300 0x34).write 0x0301 0x12)
    (fun t => t.pc == 0x1234) = true := by decide

/-- V-CT1. -/
theorem test_jsr : after (cpu [0x20, 0x00, 0x90])
    (fun t => t.read 0x01FF == 0x80 && t.read 0x01FE == 0x02 && t.sp == 0xFD && t.pc == 0x9000) = true := by decide

/-- V-CT5: the return address wraps. -/
theorem test_jsr_wrap : after ((State.reset.withPc 0xFFFD).writeBytes 0xFFFD [0x20, 0x00, 0x90])
    (fun t => t.read 0x01FF == 0xFF && t.read 0x01FE == 0xFF && t.pc == 0x9000) = true := by decide

/-- V-CT6: the pulls cross the SP wrap. -/
theorem test_rts : after ((((cpu [0x60]).withSp 0xFE).write 0x01FF 0x34).write 0x0100 0x12)
    (fun t => t.pc == 0x1235 && t.sp == 0x00) = true := by decide

/-- V-CT7. -/
theorem test_nop : after (cpu [0xEA]) (fun t => t == (cpu [0xEA]).withPc 0x8001) = true := by decide

/-- V-CT8. -/
theorem test_brk : stopsWith (cpu [0x00]) (.unimplementedControlFlow 0x00 0x8000) = true := by decide

/-- V-CT9. -/
theorem test_rti : stopsWith (cpu [0x40]) (.unimplementedControlFlow 0x40 0x8000) = true := by decide

/-! ### Errors, construction and accesses -/

/-- V-EX1, V-EX3: the same error each time, and nothing changed. -/
theorem test_undefined_opcode :
    hostStep (cpu [0x02]) = (.error (.invalidOpcode 0x02 0x8000), cpu [0x02]) ∧
    (cpu [0x02]).stepAccesses = [.read 0x8000] := by decide

/-- V-RS1. -/
theorem test_reset : State.reset.sp = 0xFF ∧ State.reset.pc = 0x0000 ∧ State.reset.mem = [] ∧
    stopsWith State.reset (.unimplementedControlFlow 0x00 0x0000) = true := by decide

/-- V-RS3: PC is the word the vector holds, not the vector's address. -/
theorem test_reset_vector :
    (Memory.readWord [(0xFFFC, 0x34), (0xFFFD, 0x12)] Config.resetVector) = 0x1234 := by decide

/-- V-AC1. -/
theorem test_inc_accesses : ((cpu [0xFE, 0x00, 0x03]).withX 0x01).stepAccesses =
    [.read 0x8000, .read 0x8001, .read 0x8002, .read 0x0301, .write 0x0301 0x01] := by decide

/-- V-LS8: a store reads nothing at EA. -/
theorem test_sta_accesses : (((cpu [0x99, 0x00, 0x03]).withY 0x05).withA 0x11).stepAccesses =
    [.read 0x8000, .read 0x8001, .read 0x8002, .write 0x0305 0x11] := by decide

/-! ### The core over a bus (R45): what the host answers is what the rule uses -/

/-- R45, R74, R180: `LDA ($20),Y` with Y = 0 and the pointer at its own address: the two reads of 0x0020 get two answers. -/
theorem test_bus_answers :
    (Bus.scripted.step (cpu []).registers { inputs := [0xB1, 0x20, 0x20, 0x00, 0x77], log := [] }).2.1.a = 0x77 ∧
    (Bus.scripted.step (cpu []).registers { inputs := [0xB1, 0x20, 0x20, 0x00, 0x77], log := [] }).2.2 =
      { inputs := [], log := [.read 0x8000, .read 0x8001, .read 0x0020, .read 0x0021, .read 0x0020] } := by decide

/-- A host that keeps writes to 0x4000 from the buffer and counts them, as a device would. -/
def countingBus : Bus (Memory × Nat) where
  readByte addr h := (h.1.read addr, h)
  writeByte addr v h := if addr = 0x4000 then (h.1, h.2 + 1) else (h.1.write addr v, h.2)

/-- R45, R183: `STA $4000` reaches the host as one byte write, and the host decides what it does. -/
theorem test_bus_intercepts_a_store :
    ((countingBus.step ((cpu []).withA 0x11).registers ((cpu [0x8D, 0x00, 0x40]).mem, 0)).2.2) =
      ((cpu [0x8D, 0x00, 0x40]).mem, 1) := by decide

/-- V-CT1 over a bus: JSR's pushes, high byte first, are writes of the host's. -/
theorem test_bus_jsr :
    (Bus.scripted.step (cpu []).registers { inputs := [0x20, 0x00, 0x90], log := [] }).2.2.log =
      [.read 0x8000, .read 0x8001, .read 0x8002, .write 0x01FF 0x80, .write 0x01FE 0x02] := by decide

/-! ### Witnesses: concrete inputs that meet the hypotheses of each statement that has some -/

/-- EncodeOfDecodeIsTheBytes and LengthIsOfTheModeAlone: a decode that succeeds, at each length. -/
theorem witness_decodes :
    decode [0xEA, 0x42] = .ok (.nop, [0x42]) ∧ decode [0xA9, 0x42, 0xEA] = .ok (.ldaImm 0x42, [0xEA]) ∧
    decode [0x6C, 0xFF, 0x02] = .ok (.jmpInd 0x02FF, []) := ⟨rfl, rfl, rfl⟩

/-- DecodingIsTotal: both clauses, at the ends of the byte range and beside each other. -/
theorem witness_opcode_lists :
    (0x00 : Byte) ∉ undefinedOpcodes ∧ (0x01 : Byte) ∉ undefinedOpcodes ∧ (0x02 : Byte) ∈ undefinedOpcodes ∧
    (0xFE : Byte) ∉ undefinedOpcodes ∧ (0xFF : Byte) ∈ undefinedOpcodes := by decide

/-- StepRunsTheDecodedInstruction: each of its three clauses; the instruction's bytes wrap past 0xFFFF. -/
theorem witness_step_runs :
    decode (bytesAtPc ((State.reset.withPc 0xFFFE).writeBytes 0xFFFE [0x4C, 0x34, 0x12])) = .ok (.jmpAbs 0x1234, []) ∧
    decode (bytesAtPc (cpu [0x02])) = .error (.invalidOpcode 0x02) ∧
    step (cpu [0xEA]) = .next ((cpu [0xEA]).withPc 0x8001) := ⟨rfl, rfl, rfl⟩

/-- UndefinedOpcodeReturnsInvalidOpcode: the first and the last of the 105 values. -/
theorem witness_undefined_opcode :
    (cpu [0x02]).read (cpu [0x02]).pc ∈ undefinedOpcodes ∧ (cpu [0xFF]).read (cpu [0xFF]).pc ∈ undefinedOpcodes := by
  decide

/-- BrkAndRtiReturnUnimplementedControlFlow: a state at each of the two opcodes. -/
theorem witness_brk_rti : (cpu [0x00]).read (cpu [0x00]).pc = 0x00 ∧ (cpu [0x40]).read (cpu [0x40]).pc = 0x40 := by decide

/-- StepCompletesUnlessTheOpcodeIsAnError: a step that completes, and one for each error. -/
theorem witness_completes :
    Completes (cpu [0xEA]) ∧ step (cpu [0xFF]) = .fault (.invalidOpcode 0xFF 0x8000) ∧
    step (cpu [0x40]) = .fault (.unimplementedControlFlow 0x40 0x8000) := ⟨⟨_, rfl⟩, rfl, rfl⟩

/-- ErrorLeavesTheStateAndRepeats. -/
theorem witness_host_step_error :
    hostStep (cpu [0x00]) = (.error (.unimplementedControlFlow 0x00 0x8000), cpu [0x00]) := rfl

/-- EveryStepKeepsTheInvariant and StepWritesExactlyItsListedAccesses: a step that stores, from a canonical memory,
and an address that no listed write names. -/
theorem witness_inv_step :
    ((cpu [0x48]).withA 0x42).Inv ∧
    step ((cpu [0x48]).withA 0x42) = .next ((((cpu [0x48]).withA 0x42).withPc 0x8001).push 0x42) ∧
    ∀ v, Access.write 0x01FE v ∉ ((cpu [0x48]).withA 0x42).stepAccesses := by
  refine ⟨by unfold State.Inv; decide, rfl, fun v => ?_⟩
  simp only [show ((cpu [0x48]).withA 0x42).stepAccesses = [.read 0x8000, .write 0x01FF 0x42] by decide]
  simp

/-- EveryReachableStateMeetsTheInvariant: a construction, a host write and a completed step. -/
theorem witness_reachable :
    Reachable ((State.reset.hostWrite (.byte 0x0000 0xEA)).withPc 0x0001) :=
  .step (.host (.construct [] Config.resetRegs) (.byte 0x0000 0xEA)) rfl

/-- CanonicalMemoriesAreEqualData: a memory written out, and the same one made by writes in another order. -/
theorem witness_canonical :
    Memory.wf [(0x0010, 0x01), (0x0020, 0x02)] = true ∧
    (Memory.write (Memory.write [] 0x0020 0x02) 0x0010 0x01).wf = true ∧
    ∀ a : Addr, Memory.read [(0x0010, 0x01), (0x0020, 0x02)] a =
      (Memory.write (Memory.write [] 0x0020 0x02) 0x0010 0x01).read a := ⟨by decide, by decide, fun _ => rfl⟩

/-- ZeroPageAddressesStayInPageZero, IndirectJump…, BranchTarget…: an instruction of each of the three modes; and
pointers on both sides of the boundary where the parameter matters. -/
theorem witness_modes :
    (Instr.ldxZpy 0).mode = .zpy ∧ (Instr.jmpInd 0).mode = .ind ∧ (Instr.beq 0).mode = .rel ∧
    (0x02FE : Addr).toNat % 256 ≠ 255 ∧ ¬ (0x02FF : Addr).toNat % 256 ≠ 255 := by decide

/-- DecimalFlagDoesNotChangeArithmetic: both alternatives. -/
theorem witness_arithmetic : (Instr.adcImm 1).mnemonic = .adc ∧ (Instr.sbcIzy 1).mnemonic = .sbc := by decide

/-- BranchesTestOneFlag: each flag tested, clear and set. -/
theorem witness_branch_conditions :
    (nvzc false false false false).n = false ∧ (nvzc true false false false).n = true ∧
    (nvzc false true false false).v = true ∧ (nvzc false false true false).z = true ∧
    (nvzc false false false true).c = true := by decide

/-- JsrThenRtsResumesAfterTheJsr (S8): a JSR at PC, and an RTS at its target after the pushes. -/
theorem witness_jsr_rts :
    let s := (cpu [0x20, 0xCD, 0xAB]).write 0xABCD 0x60
    s.read s.pc = 0x20 ∧ after s (fun t => t.pc == 0xABCD && t.read t.pc == 0x60) = true := by decide

/-- NopOnlyAdvancesPc. -/
theorem witness_nop : (cpu [0xEA]).read (cpu [0xEA]).pc = 0xEA := by decide

/-- OnlyTheNamedInstructionsWriteEachRegister: a completed meaning that changes A (by either alternative), X, Y, SP, PC. -/
theorem witness_register_changes :
    let s := (cpu []).withY 0x01
    (∃ t, exec .tya s = .next t ∧ t.a ≠ s.a) ∧ (∃ t, exec .lsrAcc (s.withA 2) = .next t ∧ t.a ≠ (s.withA 2).a) ∧
    (∃ t, exec .inx s = .next t ∧ t.x ≠ s.x) ∧ (∃ t, exec .dey s = .next t ∧ t.y ≠ s.y) ∧
    (∃ t, exec .pha s = .next t ∧ t.sp ≠ s.sp) ∧ ∃ t, exec (.jmpAbs 0) s = .next t ∧ t.pc ≠ s.pc :=
  ⟨⟨_, rfl, by decide⟩, ⟨_, rfl, by decide⟩, ⟨_, rfl, by decide⟩, ⟨_, rfl, by decide⟩, ⟨_, rfl, by decide⟩,
    ⟨_, rfl, by decide⟩⟩

/-- OnlyTheNamedInstructionsWriteEachFlag: each flag changed, and V set. -/
theorem witness_flag_changes :
    let s := (cpu []).withFlags (allFlags true)
    (∃ t, exec .tax s = .next t ∧ t.flags.n ≠ s.flags.n) ∧ (∃ t, exec .inx s = .next t ∧ t.flags.z ≠ s.flags.z) ∧
    (∃ t, exec .clv s = .next t ∧ t.flags.v ≠ s.flags.v) ∧
    (∃ t, exec (.adcImm 0x7F) (s.withA 1) = .next t ∧ t.flags.v = true) ∧
    (∃ t, exec .clc s = .next t ∧ t.flags.c ≠ s.flags.c) ∧ (∃ t, exec .cld s = .next t ∧ t.flags.d ≠ s.flags.d) ∧
    (∃ t, exec .cli s = .next t ∧ t.flags.i ≠ s.flags.i) ∧ ∃ t, exec .plp s = .next t ∧ t.flags.b ≠ s.flags.b :=
  ⟨⟨_, rfl, by decide⟩, ⟨_, rfl, by decide⟩, ⟨_, rfl, by decide⟩, ⟨_, rfl, by decide⟩, ⟨_, rfl, by decide⟩,
    ⟨_, rfl, by decide⟩, ⟨_, rfl, by decide⟩, ⟨_, rfl, by decide⟩⟩

/-- BreakDecimalAndInterruptFlagsAreInert: D, I and B changed; an instruction other than PHP that completes, and one
that stops. -/
theorem witness_inert_flags :
    let s := (cpu []).withFlags (allFlags true)
    (∃ t, exec .cld s = .next t ∧ t.flags.d ≠ s.flags.d) ∧ (∃ t, exec .cli s = .next t ∧ t.flags.i ≠ s.flags.i) ∧
    (∃ t, exec .plp s = .next t ∧ t.flags.b ≠ s.flags.b) ∧
    (Instr.cld.mnemonic ≠ .php ∧ Instr.brk.mnemonic ≠ .php ∧
      exec .brk s = .fault (.unimplementedControlFlow 0x00 0x8000)) :=
  ⟨⟨_, rfl, by decide⟩, ⟨_, rfl, by decide⟩, ⟨_, rfl, by decide⟩, by decide, by decide, rfl⟩

/-- StepDependsOnlyOnItsListedReads: a memory that differs from the state's only where the step reads nothing, for a
step that completes and for one that stops. -/
theorem witness_other_memory :
    (∀ a : Addr, Access.read a ∈ (cpu [0xEA]).stepAccesses → ((cpu [0xEA]).write 0x9000 0x01).mem.read a = (cpu [0xEA]).read a) ∧
    step (cpu [0xEA]) = .next ((cpu [0xEA]).withPc 0x8001) ∧
    (∀ a : Addr, Access.read a ∈ (cpu [0x02]).stepAccesses → ((cpu [0x02]).write 0x9000 0x01).mem.read a = (cpu [0x02]).read a) ∧
    step (cpu [0x02]) = .fault (.invalidOpcode 0x02 0x8000) := by
  refine ⟨fun a h => ?_, rfl, fun a h => ?_, rfl⟩
  · rw [show (cpu [0xEA]).stepAccesses = [.read 0x8000] by decide] at h
    obtain rfl : a = 0x8000 := by simpa using h
    decide
  · rw [show (cpu [0x02]).stepAccesses = [.read 0x8000] by decide] at h
    obtain rfl : a = 0x8000 := by simpa using h
    decide

/-- The memory frames (StoresByte, WriteStoresOneByte, JsrPushesTheReturnAddress): an address beside the bytes stored. -/
theorem witness_other_address :
    (0x0305 : Addr) ≠ 0x0306 ∧ (0x01FD : Addr) ≠ BitVec.ofNat 16 (256 + (0xFF : Byte).toNat) ∧
    (0x01FD : Addr) ≠ BitVec.ofNat 16 (256 + ((0xFF : Byte).toNat + 255) % 256) := by decide


end Sys2Proof.Tests
end

/-! PROOFS. The statements of 00_scope.md: the core over a bus (R5, R45). -/

namespace Sys2Proof.Machine

/-! ### What a rule leaves -/

/-- An instruction rule leaves in memory what its listed accesses leave there (R55). -/
theorem exec_mem_eq_foldl {i : Instr} {s t : State} (h : exec i s = .next t) :
    t.mem = (s.ruleAccesses i).foldl Access.apply s.mem := by
  cases i
  case brk => cases h
  case rti => cases h
  all_goals injection h with h
  all_goals subst h
  -- DEC adds 2^8 - 1 where its listed write subtracts 1
  case decZp | decZpx | decAbs | decAbsx => exact congrArg (s.mem.write _) (BitVec.sub_eq_add_neg _ _).symm
  all_goals rfl

/-- Every rule completes from every state, but BRK and RTI, which always stop and access nothing. -/
theorem exec_completes_or_stops (i : Instr) :
    (∀ s, ∃ t, exec i s = .next t) ∨
    ∃ opcode, ∀ s, exec i s = .fault (.unimplementedControlFlow opcode s.pc) ∧ s.ruleAccesses i = [] := by
  by_cases brk : i = .brk
  · exact .inr ⟨0x00, fun s => by subst brk; exact ⟨rfl, rfl⟩⟩
  by_cases rti : i = .rti
  · exact .inr ⟨0x40, fun s => by subst rti; exact ⟨rfl, rfl⟩⟩
  exact .inl fun s => exec_completes i s brk rti

/-- The memory an outcome leaves: after a stop, the one before (R235). -/
def memoryAfter (m : Memory) : Result → Memory
  | .next t => t.mem
  | .fault _ => m
  | .refused _ => m

theorem memoryAfter_exec (i : Instr) (s : State) :
    memoryAfter s.mem (exec i s) = (s.ruleAccesses i).foldl Access.apply s.mem := by
  obtain completes | ⟨_, stops⟩ := exec_completes_or_stops i
  · obtain ⟨t, h⟩ := completes s
    rw [h]
    exact exec_mem_eq_foldl h
  · obtain ⟨fault, silent⟩ := stops s
    rw [fault, silent]
    rfl

/-- What a step returns and the registers it leaves, from the outcome of its rule (R82, R235). -/
def stepReturn (r : Registers) (opcode : Byte) : Result → StepReturn × Registers
  | .next t => (.ok { opcode := opcode, pc := r.pc }, t.registers)
  | .fault e => (.error e, r)
  | .refused e => (.refused e, r)

theorem hostStep_undefined {s : State} (undefined : s.fetch = none) :
    hostStep s = (.error (.invalidOpcode (s.read s.pc) s.pc), s) := by
  simp only [hostStep, step, undefined, raiseInvalidOpcode]

/-- A step of the machine with a defined opcode, by the outcome of the rule. -/
theorem hostStep_eq {s : State} {i : Instr} (fetched : s.fetch = some i) :
    ((hostStep s).1, (hostStep s).2.registers) = stepReturn s.registers (s.read s.pc) (exec i (s.enter i)) ∧
    (hostStep s).2.mem = memoryAfter s.mem (exec i (s.enter i)) := by
  simp only [hostStep, step, fetched]
  rcases exec i (s.enter i) with _ | _ | _ <;> exact ⟨rfl, rfl⟩

/-! ### A rule depends on the bytes it reads alone (R55) -/

/-- Two memories hold the same bytes at the reads among some accesses. -/
def AgreeOnReads (m m' : Memory) (l : List Access) : Prop := ∀ a, Access.read a ∈ l → m'.read a = m.read a

section
variable {r : Registers} {m m' : Memory}

theorem zeroPagePointer_congr {p : Byte} (agree : AgreeOnReads m m' (zeroPagePointerAccesses p)) :
    (r.over m').zeroPagePointer p = (r.over m).zeroPagePointer p :=
  congrArg₂ joinBytes (agree _ (.head _)) (agree _ (.tail _ (.head _)))

/-- The effective address is given by the registers and the pointer bytes (R67 to R71, R73, R74). -/
theorem ea_congr_pointer {o : MemOperand} (agree : AgreeOnReads m m' ((r.over m).pointerAccesses o)) :
    (r.over m').ea o = (r.over m).ea o := by
  cases o
  case izx zp => exact zeroPagePointer_congr agree
  case izy zp => exact congrArg (· + zext16 r.y) (zeroPagePointer_congr agree)
  all_goals rfl

/-- The target of JMP (ind) is given by the pointer bytes (R72), whatever JmpIndirectPageWrap is. -/
theorem eaIndirect_congr {ptr : Addr}
    (agree : AgreeOnReads m m' ((r.over m).operandPointerAccesses (.ind ptr))) :
    (r.over m').eaIndirect ptr = (r.over m).eaIndirect ptr :=
  congrArg₂ joinBytes (agree _ (.head _)) (agree _ (.tail _ (.head _)))

theorem operandPointerAccesses_over (o : Operand) :
    (r.over m').operandPointerAccesses o = (r.over m).operandPointerAccesses o := by
  rcases o with _ | _ | _ | o | _ | _
  case mem => cases o <;> rfl
  all_goals rfl

theorem pullByte_congr (agree : m'.read (stackAddr (r.sp + 1)) = m.read (stackAddr (r.sp + 1))) :
    (r.over m').pullByte = (r.over m).pullByte := agree

theorem pulled_pullByte_congr (agree : m'.read (stackAddr (r.sp + 2)) = m.read (stackAddr (r.sp + 2))) :
    (r.over m').pulled.pullByte = (r.over m).pulled.pullByte := by
  have twice : r.sp + 2 = r.sp + 1 + 1 := (BitVec.add_assoc r.sp 1 1).symm
  rw [twice] at agree
  exact agree

theorem stackAccesses_over (mn : Mnemonic) : (r.over m').stackAccesses mn = (r.over m).stackAccesses mn := by
  cases mn <;> rfl

theorem resolved_congr {i : Instr} (agree : AgreeOnReads m m' ((r.over m).operandPointerAccesses i.operand)) :
    (r.over m').resolved i = (r.over m).resolved i := by
  unfold State.resolved
  generalize i.operand = o at agree
  rcases o with _ | _ | _ | o | ptr | _
  case ind => simp only [eaIndirect_congr agree]
  case mem =>
    have ea : (r.over m').ea o = (r.over m).ea o := ea_congr_pointer agree
    cases o <;> simp only [ea]
  all_goals rfl

theorem dataAccesses_congr {o : MemOperand} {mn : Mnemonic} (ea : (r.over m').ea o = (r.over m).ea o)
    (load : Access.read ((r.over m).ea o) ∈ (r.over m).dataAccesses o mn → (r.over m').load o = (r.over m).load o) :
    (r.over m').dataAccesses o mn = (r.over m).dataAccesses o mn := by
  cases mn
  case asl | lsr | rol | ror =>
    simp only [State.dataAccesses, State.modifyAccesses, ea, load (.head _)]; rfl
  case inc | dec => simp only [State.dataAccesses, State.modifyAccesses, ea, load (.head _)]
  case ora | and | eor | bit | adc | sbc | cmp | cpx | cpy | lda | ldx | ldy => simp only [State.dataAccesses, ea]
  case sta | stx | sty => simp only [State.dataAccesses, ea]; rfl
  all_goals rfl

variable {i : Instr} (agree : AgreeOnReads m m' ((r.over m).ruleAccesses i))
include agree

theorem pointer_agree : AgreeOnReads m m' ((r.over m).operandPointerAccesses i.operand) :=
  fun a listed => agree a (List.mem_append_left _ (List.mem_append_left _ listed))

theorem stack_agree : AgreeOnReads m m' ((r.over m).stackAccesses i.mnemonic) :=
  fun a listed => agree a (List.mem_append_right _ listed)

theorem ea_congr_rule {o : MemOperand} (operand : i.operand = .mem o) : (r.over m').ea o = (r.over m).ea o :=
  ea_congr_pointer fun a listed => pointer_agree agree a (by rwa [operand])

theorem load_congr_rule {o : MemOperand} (operand : i.operand = .mem o)
    (listed : Access.read ((r.over m).ea o) ∈ (r.over m).dataAccesses o i.mnemonic) :
    (r.over m').load o = (r.over m).load o := by
  have read := agree ((r.over m).ea o) <|
    List.mem_append_left _ (List.mem_append_right _ (by rw [operand]; exact listed))
  rw [State.load, ea_congr_rule agree operand]
  exact read

theorem ruleAccesses_congr : (r.over m').ruleAccesses i = (r.over m).ruleAccesses i := by
  have data : (r.over m').operandDataAccesses i.mnemonic i.operand =
      (r.over m).operandDataAccesses i.mnemonic i.operand := by
    rcases operand : i.operand with _ | _ | _ | o | _ | _
    case mem => exact dataAccesses_congr (ea_congr_rule agree operand) (load_congr_rule agree operand)
    all_goals rfl
  rw [State.ruleAccesses, operandPointerAccesses_over, data, stackAccesses_over]
  rfl

/-- The registers a rule leaves are a function of the registers and the bytes it reads: its pointer, its operand, or the
bytes it pulls. -/
theorem exec_registers_congr {t t' : State} (h : exec i (r.over m) = .next t) (h' : exec i (r.over m') = .next t') :
    t'.registers = t.registers := by
  have load := fun {o} => load_congr_rule (o := o) agree
  have stack := stack_agree agree
  have pointer := pointer_agree agree
  cases i
  case brk => cases h
  case rti => cases h
  all_goals injection h with h
  all_goals injection h' with h'
  all_goals subst h h'
  case jmpInd ptr => rw [eaIndirect_congr pointer]; rfl
  case pla => rw [pullByte_congr (stack _ (.head _))]; rfl
  case plp => rw [pullByte_congr (stack _ (.head _))]; rfl
  case rts =>
    rw [pullByte_congr (stack _ (.head _)), pulled_pullByte_congr (stack _ (.tail _ (.head _)))]; rfl
  -- of the other rules, those that read their operand read it first at EA
  all_goals try rw [load rfl (.head _)]
  all_goals rfl

theorem stepReturn_exec_congr (r₀ : Registers) (opcode : Byte) :
    stepReturn r₀ opcode (exec i (r.over m')) = stepReturn r₀ opcode (exec i (r.over m)) := by
  obtain completes | ⟨_, stops⟩ := exec_completes_or_stops i
  · obtain ⟨t, h⟩ := completes (r.over m)
    obtain ⟨t', h'⟩ := completes (r.over m')
    rw [h, h', stepReturn, stepReturn, exec_registers_congr agree h h']
  · obtain ⟨fault, _⟩ := stops (r.over m)
    obtain ⟨fault', _⟩ := stops (r.over m')
    rw [fault, fault']
    rfl

end

/-! ### A fetch depends on the bytes it reads alone (R62) -/

theorem fetchAccesses_eq_cons (s : State) : s.fetchAccesses = .read s.pc :: s.fetchAccesses.tail := by
  unfold State.fetchAccesses
  split <;> rfl

/-- The opcode byte gives the number of operand bytes (R60, R61). -/
theorem fetchAccesses_congr {r : Registers} {m m' : Memory} (opcode : m'.read r.pc = m.read r.pc) :
    (r.over m').fetchAccesses = (r.over m).fetchAccesses := by
  have entry : (r.over m').fetchEntry = (r.over m).fetchEntry := congrArg dispatch opcode
  unfold State.fetchAccesses
  rw [entry]
  rfl

theorem opcode_agree {r : Registers} {m m' : Memory} (agree : AgreeOnReads m m' (r.over m).fetchAccesses) :
    m'.read r.pc = m.read r.pc := agree _ (by rw [fetchAccesses_eq_cons]; exact .head _)

theorem fetch_congr {r : Registers} {m m' : Memory} (agree : AgreeOnReads m m' (r.over m).fetchAccesses) :
    (r.over m').fetch = (r.over m).fetch := by
  have entry : (r.over m').fetchEntry = (r.over m).fetchEntry := congrArg dispatch (opcode_agree agree)
  unfold State.fetchAccesses at agree
  unfold State.fetch
  rw [entry]
  generalize (r.over m).fetchEntry = e at agree ⊢
  rcases e with _ | i | mk | mk
  case undefined | one => rfl
  case two => exact congrArg (fun b => some (mk b)) (agree _ (.tail _ (.head _)))
  case three =>
    exact congrArg₂ (fun lo hi => some (mk (joinBytes lo hi))) (agree _ (.tail _ (.head _)))
      (agree _ (.tail _ (.tail _ (.head _))))

@[simp] theorem State.registers_pc (s : State) : s.registers.pc = s.pc := rfl

theorem State.enter_over (s : State) (i : Instr) : (s.enter i).registers.over s.mem = s.enter i := by
  unfold State.enter
  split <;> rfl

theorem enter_registers_over (r : Registers) (m m' : Memory) (i : Instr) :
    ((r.over m').enter i).registers = ((r.over m).enter i).registers := by
  unfold State.enter
  split <;> rfl

/-! ### What the core sees of its host (R45) -/

/-- A computation over a bus meets the host only through byte accesses: it leaves the host as a log of accesses leaves
it, and with no host behind the bus, given the bytes the host answers along that log, it uses each of them once, makes
the accesses of the log and gives the same result. -/
def MeetsHostByAccesses {α : Type} (run : (μ : Type) → Bus μ → μ → α × μ) : Prop :=
  ∀ (μ : Type) (bus : Bus μ) (h : μ), ∃ log : List Access,
    (run μ bus h).2 = bus.replay log h ∧
    ∀ (rest : List Byte) (before : List Access),
      run Script Bus.scripted { inputs := bus.answers log h ++ rest, log := before } =
        ((run μ bus h).1, { inputs := rest, log := before ++ log })

theorem MeetsHostByAccesses.pure {α : Type} (a : α) : MeetsHostByAccesses fun _ _ h => (a, h) :=
  fun _ _ _ => ⟨[], rfl, fun _ _ => by simp [Bus.answers]⟩

/-- One computation after another, the second one chosen by the result of the first: the logs are put together. -/
theorem MeetsHostByAccesses.bind {α β : Type} {run : (μ : Type) → Bus μ → μ → α × μ}
    {next : α → (μ : Type) → Bus μ → μ → β × μ} (first : MeetsHostByAccesses run)
    (second : ∀ a, MeetsHostByAccesses (next a)) :
    MeetsHostByAccesses fun μ bus h => next (run μ bus h).1 μ bus (run μ bus h).2 := by
  intro μ bus h
  obtain ⟨log₁, host₁, scripted₁⟩ := first μ bus h
  obtain ⟨log₂, host₂, scripted₂⟩ := second (run μ bus h).1 μ bus (run μ bus h).2
  refine ⟨log₁ ++ log₂, by rw [host₂, host₁, Bus.replay_append], fun rest before => ?_⟩
  simp only [Bus.answers_append, List.append_assoc, scripted₁, ← host₁, scripted₂]

/-- A result computed from another one meets no host. -/
theorem MeetsHostByAccesses.map {α β : Type} {run : (μ : Type) → Bus μ → μ → α × μ} (f : α → β)
    (meets : MeetsHostByAccesses run) : MeetsHostByAccesses fun μ bus h => (f (run μ bus h).1, (run μ bus h).2) :=
  meets.bind fun a => .pure (f a)

theorem Bus.length_answers_reads {μ : Type} (bus : Bus μ) (l : List Addr) (h : μ) :
    (bus.answers (l.map .read) h).length = l.length := by
  induction l generalizing h with
  | nil => rfl
  | cons addr l ih => simp [Bus.answers, ih]

theorem Bus.answers_writes {μ : Type} (bus : Bus μ) (l : List (Addr × Byte)) (h : μ) :
    bus.answers (l.map fun c => .write c.1 c.2) h = [] := by
  induction l generalizing h with
  | nil => rfl
  | cons c l ih => exact ih _

theorem Bus.readAll_meets (l : List Addr) : MeetsHostByAccesses fun _ bus h => bus.readAll l h :=
  fun _ bus h => ⟨l.map .read, by simp only [Bus.readAll_eq], fun rest before => by
    simp only [Bus.readAll_scripted _ _ _ _ (bus.length_answers_reads l h), Bus.readAll_eq]⟩

theorem Bus.writeAll_meets (l : List (Addr × Byte)) : MeetsHostByAccesses fun _ bus h => ((), bus.writeAll l h) :=
  fun _ bus h => ⟨l.map fun c => .write c.1 c.2, bus.writeAll_eq l h, fun rest before => by
    simp only [Bus.answers_writes, List.nil_append, Bus.writeAll_scripted]⟩

theorem Bus.fetch_meets (r : Registers) : MeetsHostByAccesses fun _ bus h => bus.fetch r h :=
  (Bus.readAll_meets [r.pc]).bind fun opcode =>
    (Bus.readAll_meets ((r.given opcode).fetchAccesses.tail.filterMap Access.readAddr)).map fun operands =>
      r.given (opcode ++ operands)

theorem Bus.runRule_meets (i : Instr) (r : Registers) : MeetsHostByAccesses fun _ bus h => bus.runRule i r h :=
  (Bus.readAll_meets (((r.over []).operandPointerAccesses i.operand).filterMap Access.readAddr)).bind fun pointer =>
    (Bus.readAll_meets
      (((r.over []).ruleAccesses ((r.given pointer).resolved i)).filterMap Access.readAddr)).bind fun data =>
    (Bus.writeAll_meets
      (((r.given data).ruleAccesses ((r.given pointer).resolved i)).filterMap Access.written)).map fun _ =>
      exec ((r.given pointer).resolved i) (r.given data)

/-- A step over a bus once the instruction's bytes are read. -/
def Bus.afterFetch (r : Registers) (fetched : State) {μ : Type} (bus : Bus μ) (h : μ) : (StepReturn × Registers) × μ :=
  match fetched.fetch with
  | none => ((.error (.invalidOpcode (fetched.read r.pc) r.pc), r), h)
  | some i =>
    let ran := bus.runRule i (fetched.enter i).registers h
    (stepReturn r (fetched.read r.pc) ran.1, ran.2)

/-- A step over a bus is its fetch and what comes after it. -/
theorem Bus.step_eq {μ : Type} (bus : Bus μ) (r : Registers) (h : μ) :
    bus.step r h =
      let done := bus.afterFetch r (bus.fetch r h).1 (bus.fetch r h).2
      (done.1.1, done.1.2, done.2) := by
  simp only [Bus.step, Bus.afterFetch]
  rcases (bus.fetch r h).1.fetch with _ | i
  · rfl
  · dsimp only
    rcases bus.runRule i ((bus.fetch r h).1.enter i).registers (bus.fetch r h).2 with ⟨_ | _ | _, _⟩ <;> rfl

theorem Bus.afterFetch_meets (r : Registers) (fetched : State) :
    MeetsHostByAccesses fun _ bus h => bus.afterFetch r fetched h := by
  unfold Bus.afterFetch
  rcases fetched.fetch with _ | i
  · exact .pure _
  · exact (Bus.runRule_meets i (fetched.enter i).registers).map (stepReturn r (fetched.read r.pc))

theorem Bus.step_meets (r : Registers) :
    MeetsHostByAccesses fun _ bus h => (((bus.step r h).1, (bus.step r h).2.1), (bus.step r h).2.2) := by
  simp only [Bus.step_eq]
  exact (Bus.fetch_meets r).bind fun fetched => Bus.afterFetch_meets r fetched

/-- Two bytes read from consecutive addresses are the word there, low byte first (R44). -/
theorem Memory.readWord_holding (addr : Addr) (lo hi : Byte) :
    (Memory.holding [(addr, lo), (addr + 1, hi)]).readWord addr = joinBytes lo hi := by
  simp [Memory.readWord_eq, Memory.holding, Memory.read_write]

theorem Bus.construct_registers {μ : Type} (bus : Bus μ) (c : Config.ResetRegs) (h : μ) :
    (bus.construct c h).1 =
      { a := c.a, x := c.x, y := c.y, sp := 0xFF,
        pc := joinBytes (bus.readByte 0xFFFC h).1 (bus.readByte 0xFFFD (bus.readByte 0xFFFC h).2).1,
        flags := Flags.construct c } :=
  congrArg (fun pc => ({ a := c.a, x := c.x, y := c.y, sp := 0xFF, pc, flags := Flags.construct c } : Registers))
    (Memory.readWord_holding Config.resetVector _ _)

/-- Settles O57: a step is a chain of reads, writes and computations, each of which meets the host by accesses alone. -/
theorem busStepMeetsTheHostOnlyThroughItsAccesses : Obligations.BusStepMeetsTheHostOnlyThroughItsAccesses := by
  intro μ bus h
  refine ⟨fun r => ?_, fun c => ⟨rfl, _, _, rfl, bus.construct_registers c h⟩⟩
  obtain ⟨log, host, scripted⟩ := Bus.step_meets r μ bus h
  exact ⟨log, host, by simpa [Prod.ext_iff, and_assoc] using scripted [] []⟩

/-! ### Over the plain buffer (R41) -/

/-- The buffer that holds a memory's bytes at the reads of some accesses, and nothing else. -/
def Memory.seenBy (m : Memory) (l : List Access) : Memory :=
  Memory.holding ((l.filterMap Access.readAddr).map fun a => (a, m.read a))

theorem seenBy_agree (m : Memory) (l : List Access) : AgreeOnReads m (m.seenBy l) l :=
  fun _ listed => Memory.read_holding m _ (List.mem_filterMap.mpr ⟨_, listed, rfl⟩)

theorem Bus.given_readAll_plain (r : Registers) (l : List Access) (m : Memory) :
    r.given (Bus.plain.readAll (l.filterMap Access.readAddr) m).1 = r.over (m.seenBy l) := by
  rw [Bus.readAll_plain]
  rfl

theorem Bus.host_readAll_plain (l : List Addr) (m : Memory) : (Bus.plain.readAll l m).2 = m := by
  rw [Bus.readAll_plain]

/-- The writes of some accesses do to the plain buffer what the accesses do to memory. -/
theorem Bus.writeAll_plain (l : List Access) (m : Memory) :
    Bus.plain.writeAll (l.filterMap Access.written) m = l.foldl Access.apply m := by
  induction l generalizing m with
  | nil => rfl
  | cons access l ih => cases access <;> exact ih _

/-- A fetch over the plain buffer sees memory's bytes at the accesses of R55 items 1 and 2, and changes nothing. -/
theorem Bus.fetch_plain (r : Registers) (m : Memory) :
    Bus.plain.fetch r m = (r.over (m.seenBy (r.over m).fetchAccesses), m) := by
  have opcode : (r.given [(r.pc, m.read r.pc)]).fetchAccesses = (r.over m).fetchAccesses :=
    fetchAccesses_congr (Memory.read_write_same [] r.pc (m.read r.pc))
  rw [fetchAccesses_eq_cons (r.over m), ← opcode]
  simp [Bus.fetch, Access.readAddr, Memory.seenBy, Registers.given_eq]

/-- Where an instruction with its pointer read makes its reads is fixed by the registers. -/
theorem seenBy_resolved (i : Instr) (q : State) (r : Registers) (m : Memory) :
    m.seenBy ((r.over []).ruleAccesses (q.resolved i)) = m.seenBy ((r.over m).ruleAccesses (q.resolved i)) := by
  cases i <;> rfl

/-- A rule over the plain buffer does what it does on memory. -/
theorem Bus.runRule_plain (i : Instr) (r : Registers) (m : Memory) (r₀ : Registers) (opcode : Byte) :
    stepReturn r₀ opcode (Bus.plain.runRule i r m).1 = stepReturn r₀ opcode (exec i (r.over m)) ∧
    (Bus.plain.runRule i r m).2 = memoryAfter m (exec i (r.over m)) := by
  have resolved : (r.over (m.seenBy ((r.over []).operandPointerAccesses i.operand))).resolved i =
      (r.over m).resolved i := by
    rw [operandPointerAccesses_over]
    exact resolved_congr (seenBy_agree m _)
  have agree := seenBy_agree m ((r.over m).ruleAccesses ((r.over m).resolved i))
  simp only [Bus.runRule, Bus.given_readAll_plain, Bus.host_readAll_plain, Bus.writeAll_plain, resolved,
    seenBy_resolved i (r.over m) r m]
  rw [stepReturn_exec_congr agree, ruleAccesses_congr agree, ← exec_resolved i (r.over m)]
  exact ⟨rfl, (memoryAfter_exec _ (r.over m)).symm⟩

/-- Over the plain buffer, once the instruction's bytes are read, a step is the rule run on memory. -/
theorem Bus.afterFetch_plain {s : State} {fetched : Memory} (agree : AgreeOnReads s.mem fetched s.fetchAccesses) :
    Bus.plain.afterFetch s.registers (s.registers.over fetched) s.mem =
      (((hostStep s).1, (hostStep s).2.registers), (hostStep s).2.mem) := by
  have opcode : (s.registers.over fetched).read s.pc = s.read s.pc := opcode_agree (r := s.registers) agree
  have instr : (s.registers.over fetched).fetch = s.fetch := fetch_congr (r := s.registers) agree
  rcases found : s.fetch with _ | i
  · simp only [Bus.afterFetch, instr, found, State.registers_pc, opcode, hostStep_undefined found]
  · obtain ⟨returned, memory⟩ := hostStep_eq found
    obtain ⟨ran, left⟩ := Bus.runRule_plain i (s.enter i).registers s.mem s.registers (s.read s.pc)
    rw [State.enter_over] at ran left
    simp only [Bus.afterFetch, instr, found, State.registers_pc, opcode, enter_registers_over s.registers s.mem fetched,
      State.registers_over, ran, left, returned, memory]

/-- Settles O56: the bytes read over the plain buffer are memory's at the listed reads, and those fix the fetch, the
rule's result and its writes. -/
theorem busStepOverThePlainBufferIsTheStep : Obligations.BusStepOverThePlainBufferIsTheStep := by
  refine ⟨fun s => ?_, fun image c => ?_⟩
  · rw [Bus.step_eq, Bus.fetch_plain, State.registers_over,
      Bus.afterFetch_plain (seenBy_agree s.mem s.fetchAccesses)]
  · rw [Prod.ext_iff, Bus.construct_registers]
    exact ⟨rfl, rfl⟩

end Sys2Proof.Machine

/-! PROOFS. The statements of 10_state.md: which instructions write each register and flag (R22, R29 to R34), and the
status byte (R27, R28). -/

namespace Sys2Proof.Machine

/-! ### What each instruction writes -/

/-- What a completed rule writes, by its mnemonic and mode: the state it leaves is the one before with the operation named
here done, whose values and addresses are left open. BRK and RTI never complete. -/
def RuleWrites (s t : State) (md : Mode) : Mnemonic → Prop
  | .ora | .and | .eor | .lda | .txa | .tya => ∃ v, t = s.assignA v
  | .ldx | .inx | .dex | .tax | .tsx => ∃ v, t = s.assignX v
  | .ldy | .iny | .dey | .tay => ∃ v, t = s.assignY v
  | .adc | .sbc => ∃ r : Sum, t = (s.withA r.r).withFlags (s.flags.summed r)
  | .asl | .lsr | .rol | .ror =>
    (md = .acc ∧ ∃ r, t = (s.withFlags (s.flags.shifted r)).withA r.1) ∨
      ∃ a r, t = (s.withFlags (s.flags.shifted r)).write a r.1
  | .inc | .dec => ∃ a v, t = (s.write a v).withFlags (s.flags.setZN v)
  | .bit => ∃ m, t = s.withFlags (s.flags.bitTest s.a m)
  | .cmp | .cpx | .cpy => ∃ reg m, t = s.withFlags (s.flags.compare reg m)
  | .clc | .sec => ∃ p, t = s.withFlags (s.flags.setC p)
  | .cli | .sei => ∃ p, t = s.withFlags (s.flags.setI p)
  | .cld | .sed => ∃ p, t = s.withFlags (s.flags.setD p)
  | .clv => t = s.withFlags (s.flags.setV false)
  | .sta | .stx | .sty => ∃ a v, t = s.write a v
  | .txs => ∃ v, t = s.withSp v
  | .pha | .php => ∃ v, t = s.push v
  | .pla => ∃ v, t = s.pulled.assignA v
  | .plp => ∃ p, t = s.pulled.withFlags (s.flags.setStatusByte p)
  | .bpl | .bmi | .bvc | .bvs | .bcc | .bcs | .bne | .beq | .jmp => ∃ target, t = s.withPc target
  | .jsr => ∃ hi lo target, t = ((s.push hi).push lo).withPc target
  | .rts => ∃ target, t = s.pulled.pulled.withPc target
  | .nop => t = s
  | .brk | .rti => False

theorem exec_writes {i : Instr} {s t : State} (h : exec i s = .next t) : RuleWrites s t i.mode i.mnemonic := by
  cases i
  case brk => cases h
  case rti => cases h
  all_goals injection h with h
  all_goals subst h
  case aslAcc | lsrAcc | rolAcc | rorAcc => exact .inl ⟨rfl, _, rfl⟩
  case aslZp | aslZpx | aslAbs | aslAbsx | lsrZp | lsrZpx | lsrAbs | lsrAbsx | rolZp | rolZpx | rolAbs | rolAbsx |
      rorZp | rorZpx | rorAbs | rorAbsx => exact .inr ⟨_, _, rfl⟩
  -- each other rule is its operation as it stands, and unification reads off the values
  all_goals repeat apply Exists.intro
  all_goals rfl

/-- Settles O50: what each mnemonic writes leaves the registers R22 does not name for it as they were. -/
theorem onlyTheNamedInstructionsWriteEachRegister : Obligations.OnlyTheNamedInstructionsWriteEachRegister := by
  intro i s t h
  have writes := exec_writes h
  revert writes
  cases i.mnemonic <;> simp +contextual [RuleWrites, or_imp]

/-- Settles O51: what each mnemonic writes leaves the flags whose rules do not name it as they were. -/
theorem onlyTheNamedInstructionsWriteEachFlag : Obligations.OnlyTheNamedInstructionsWriteEachFlag := by
  intro i s t h
  have writes := exec_writes h
  revert writes
  cases i.mnemonic <;> simp +contextual [RuleWrites, or_imp]

/-! ### B, D and I are inert (R32 to R34) -/

/-- BRK and RTI stop whatever the flags are, and nothing else faults. -/
theorem exec_fault_withInertFlags {i : Instr} {s : State} {f : Fault} (b d e : Bool) (h : exec i s = .fault f) :
    exec i (withInertFlags s b d e) = .fault f := by
  obtain completes | ⟨_, stops⟩ := exec_completes_or_stops i
  · obtain ⟨_, done⟩ := completes s
    rw [done] at h
    cases h
  · obtain ⟨fault, _⟩ := stops s
    obtain ⟨fault', _⟩ := stops (withInertFlags s b d e)
    rw [← h, fault, fault']
    rfl

/-- Settles O52: no operand, address or condition of a rule other than PHP's reads B, D or I, and each flag is written
by itself, so that the two runs compute the same fields. -/
theorem breakDecimalAndInterruptFlagsAreInert : Obligations.BreakDecimalAndInterruptFlagsAreInert := by
  refine ⟨fun i s t h => ?_, fun i s b d e notPhp => ⟨fun t h => ?_, fun f h => exec_fault_withInertFlags b d e h⟩⟩
  · obtain ⟨_, _, _, _, writers⟩ := onlyTheNamedInstructionsWriteEachFlag i s t h
    exact writers
  · cases i
    case php => exact absurd rfl notPhp
    case brk => cases h
    case rti => cases h
    all_goals injection h with h
    all_goals subst h
    -- PLP, CLD, SED, CLI and SEI give the flags they write the same values in both runs
    case plp | cld | sed | cli | sei => rfl
    -- every other rule hands on B, D and I as it finds them
    all_goals rfl

/-! ### The status byte (R28) -/

@[simp] theorem getElem_bitAt (k : Nat) (b : Bool) {j : Nat} (bit : j < 8) :
    (bitAt k b)[j] = (decide (j = k) && b) := by
  cases b
  · simp [bitAt]
  · by_cases below : j < k
    · simp [bitAt, below, below.ne]
    · have one : (1 : Byte).getLsbD (j - k) = decide (j = k) := by simp; omega
      simpa [bitAt, below] using one

/-- The layout of the status byte, bit 0 first (R28). -/
def Flags.bits (f : Flags) : List Bool := [f.c, f.z, f.i, f.d, f.b, true, f.v, f.n]

@[simp] theorem Flags.getElem_statusByte (f : Flags) {j : Nat} (bit : j < 8) : f.statusByte[j] = f.bits[j] := by
  interval_cases j <;> simp [Flags.statusByte, Flags.bits]

theorem Flags.setStatusByte_statusByte (f g : Flags) : g.setStatusByte f.statusByte = f := by
  ext <;> simp [Flags.bits]

/-- Bit 5 of the byte is discarded and reads back as the constant 1 (R27, R28). -/
theorem Flags.statusByte_setStatusByte (f : Flags) (p : Byte) : (f.setStatusByte p).statusByte = p ||| 0x20 := by
  apply BitVec.eq_of_getElem_eq
  intro j bit
  interval_cases j <;> simp [Flags.bits]

/-- Settles O43, from the layout of the status byte and the two round trips. -/
theorem statusByteLayoutAndRoundTrip : Obligations.StatusByteLayoutAndRoundTrip := by
  refine ⟨fun f => ⟨?_, f.setStatusByte_statusByte⟩, fun f p => ⟨f.statusByte_setStatusByte p, rfl⟩,
    fun s => ⟨rfl, ?_⟩⟩
  · simp [List.range_succ, Flags.bits]
  · simp [Flags.bits]

end Sys2Proof.Machine

/-! PROOFS. The statements of 20_memory.md: the byte and word accessors (R42 to R44), the stack (R48, R49), the canonical
form of memory, and the accesses of a step (R55). -/

namespace Sys2Proof.Machine

/-! ### What a step is: the rule of the instruction it fetches (R81) -/

theorem step_undefined {s : State} (undefined : s.fetch = none) :
    step s = .fault (.invalidOpcode (s.read s.pc) s.pc) := by
  simp only [step, undefined, raiseInvalidOpcode]

theorem step_fetched {s : State} {i : Instr} (fetched : s.fetch = some i) : step s = exec i (s.enter i) := by
  simp only [step, fetched]

theorem fetched_of_step_next {s t : State} (h : step s = .next t) :
    ∃ i, s.fetch = some i ∧ exec i (s.enter i) = .next t := by
  rcases fetched : s.fetch with _ | i
  · rw [step_undefined fetched] at h
    cases h
  · exact ⟨i, rfl, step_fetched fetched ▸ h⟩

theorem stepAccesses_undefined {s : State} (undefined : s.fetch = none) : s.stepAccesses = s.fetchAccesses := by
  simp only [State.stepAccesses, undefined, List.append_nil]

theorem stepAccesses_fetched {s : State} {i : Instr} (fetched : s.fetch = some i) :
    s.stepAccesses = s.fetchAccesses ++ (s.enter i).ruleAccesses i := by
  simp only [State.stepAccesses, fetched]

@[simp] theorem State.enter_mem (s : State) (i : Instr) : (s.enter i).mem = s.mem := by
  unfold State.enter
  split <;> rfl

theorem sameRegisters_iff {s t : State} : SameRegisters s t ↔ t.registers = s.registers := by
  simp [SameRegisters, State.registers]

/-! ### The canonical form of memory (R41, log 4) -/

/-- Settles O14: the rule a completed step runs keeps the canonical form, and entering it leaves memory alone. -/
theorem everyStepKeepsTheInvariant : Obligations.EveryStepKeepsTheInvariant := by
  intro s t inv h
  obtain ⟨i, _, ran⟩ := fetched_of_step_next h
  exact exec_wf ran (by rwa [State.enter_mem])

/-- Settles O13: the memory of every image is canonical. -/
theorem constructionHoldsTheInvariant : Obligations.ConstructionHoldsTheInvariant :=
  ⟨fun image _ => Memory.wf_ofImage image, Memory.wf_ofImage []⟩

theorem Memory.wfFrom_cons {lo c : Nat} {v : Byte} {rest : Memory} :
    Memory.wfFrom lo ((c, v) :: rest) = true ↔
      lo ≤ c ∧ c < 65536 ∧ v ≠ Memory.blankByte ∧ Memory.wfFrom (c + 1) rest = true := by
  simp [Memory.wfFrom, and_assoc]

@[simp] theorem Memory.byteAt_nil (a : Nat) : Memory.byteAt [] a = Memory.blankByte := rfl

@[simp] theorem Memory.byteAt_head (c : Nat) (v : Byte) (rest : Memory) : Memory.byteAt ((c, v) :: rest) c = v :=
  if_pos rfl

theorem Memory.byteAt_tail {c a : Nat} (v : Byte) (rest : Memory) (ne : c ≠ a) :
    Memory.byteAt ((c, v) :: rest) a = Memory.byteAt rest a := if_neg ne

/-- The first address a canonical memory lists is the least that does not read blank: another memory that reads alike
has its entries from there on. -/
theorem Memory.head_le_of_read_alike {lo c c' : Nat} {v v' : Byte} {m m' : Memory}
    (w : Memory.wfFrom lo ((c, v) :: m) = true) (w' : Memory.wfFrom lo ((c', v') :: m') = true)
    (alike : Memory.byteAt ((c, v) :: m) c = Memory.byteAt ((c', v') :: m') c) : c' ≤ c := by
  obtain ⟨_, _, listed, _⟩ := Memory.wfFrom_cons.mp w
  obtain ⟨_, bound', listed', above'⟩ := Memory.wfFrom_cons.mp w'
  by_contra before
  have fromHead : Memory.wfFrom c' ((c', v') :: m') = true := Memory.wfFrom_cons.mpr ⟨le_rfl, bound', listed', above'⟩
  rw [Memory.byteAt_head, Memory.byteAt_eq_blank fromHead (Nat.lt_of_not_le before)] at alike
  exact listed alike

theorem Memory.eq_of_byteAt_eq {m m' : Memory} {lo : Nat} (w : Memory.wfFrom lo m = true)
    (w' : Memory.wfFrom lo m' = true) (alike : ∀ a < 65536, Memory.byteAt m a = Memory.byteAt m' a) : m = m' := by
  induction m generalizing m' lo with
  | nil =>
    obtain _ | ⟨⟨c, v⟩, m'⟩ := m'
    · rfl
    · obtain ⟨_, bound, listed, _⟩ := Memory.wfFrom_cons.mp w'
      exact absurd (by simpa using alike c bound) listed.symm
  | cons e m ih =>
    obtain ⟨c, v⟩ := e
    obtain ⟨_, bound, listed, above⟩ := Memory.wfFrom_cons.mp w
    obtain _ | ⟨⟨c', v'⟩, m'⟩ := m'
    · exact absurd (by simpa using alike c bound) listed
    · obtain ⟨_, bound', _, above'⟩ := Memory.wfFrom_cons.mp w'
      obtain rfl : c = c' :=
        le_antisymm (Memory.head_le_of_read_alike w' w (alike c' bound').symm)
          (Memory.head_le_of_read_alike w w' (alike c bound))
      obtain rfl : v = v' := by simpa using alike c bound
      have rest : m = m' := ih above above' fun a small => by
        by_cases here : a < c + 1
        · rw [Memory.byteAt_eq_blank above here, Memory.byteAt_eq_blank above' here]
        · have ne : c ≠ a := by omega
          simpa only [Memory.byteAt_tail v _ ne] using alike a small
      rw [rest]

/-- Settles O16: by induction on one memory, whose first entry the other one must list first too. -/
theorem canonicalMemoriesAreEqualData : Obligations.CanonicalMemoriesAreEqualData :=
  fun _ _ w w' alike => Memory.eq_of_byteAt_eq w w' fun a small => by
    simpa [Memory.read, Nat.mod_eq_of_lt small] using alike (BitVec.ofNat 16 a)

/-! ### The accessors (R42 to R44) and the stack (R48, R49) -/

/-- Settles O17: the law of memory reads after a write, and a write's frame. -/
theorem writeStoresOneByte : Obligations.WriteStoresOneByte :=
  fun s a v => ⟨fun b => State.read_write s a b v, sameRegisters_iff.mpr rfl⟩

/-- Settles O18: the word joins the byte read with the one at the next address. -/
theorem wordReadIsLittleEndianAndWraps : Obligations.WordReadIsLittleEndianAndWraps := by
  intro s a
  have next : BitVec.ofNat 16 ((a.toNat + 1) % 65536) = a + 1 := by
    apply BitVec.eq_of_toNat_eq
    simp
  rw [next]
  exact joinBytes_toNat _ _

theorem stackAddr_succ (sp : Byte) : stackAddr (sp + 1) = BitVec.ofNat 16 (256 + (sp.toNat + 1) % 256) := by
  simp [stackAddr_eq]

/-- Settles O19: the stack address is 0x0100 + SP as a number, before the write and after the increment. -/
theorem pushAndPullUsePageOne : Obligations.PushAndPullUsePageOne := by
  intro s v
  refine ⟨⟨?_, ?_, rfl, rfl, rfl, rfl, rfl⟩, ?_, ?_, ⟨rfl, rfl, rfl, rfl, rfl⟩, fun _ => rfl⟩
  · rw [← stackAddr_eq]
    exact ⟨by simp [State.read_push], fun b other => by simp [State.read_push, other]⟩
  · rw [State.push_sp, BitVec.toNat_sub]
    simp
    omega
  · rw [State.pullByte, stackAddr_succ]
    rfl
  · simp

/-! ### Memory after a step is its listed writes (R55) -/

theorem foldl_apply_fetchAccesses (s : State) (m : Memory) : s.fetchAccesses.foldl Access.apply m = m := by
  unfold State.fetchAccesses
  split <;> rfl

theorem read_foldl_apply_of_not_written {a : Addr} {l : List Access} (m : Memory)
    (unwritten : ∀ v, Access.write a v ∉ l) : (l.foldl Access.apply m).read a = m.read a := by
  induction l generalizing m with
  | nil => rfl
  | cons access l ih =>
    have later := ih (access.apply m) fun v h => unwritten v (.tail _ h)
    rw [List.foldl_cons, later]
    cases access with
    | read b => rfl
    | write b v =>
      have other : a ≠ b := fun same => unwritten v (by rw [same]; exact .head _)
      exact Memory.read_write_other m v other

/-- Settles O53: the fetch writes nothing, and the rule leaves what its listed accesses leave. -/
theorem stepWritesExactlyItsListedAccesses : Obligations.StepWritesExactlyItsListedAccesses := by
  intro s t h
  have written : t.mem = s.stepAccesses.foldl Access.apply s.mem := by
    obtain ⟨i, fetched, ran⟩ := fetched_of_step_next h
    rw [stepAccesses_fetched fetched, List.foldl_append, foldl_apply_fetchAccesses, exec_mem_eq_foldl ran,
      State.enter_mem]
  refine ⟨written, fun a unwritten => ?_⟩
  rw [State.read_eq, written, read_foldl_apply_of_not_written s.mem unwritten]
  rfl

/-! ### A step depends on the bytes it reads alone (R55) -/

theorem over_enter (s : State) (m : Memory) (i : Instr) :
    (s.registers.over m).enter i = (s.enter i).registers.over m := by
  unfold State.enter
  split <;> rfl

section
variable {s : State} {m : Memory} (agree : AgreeOnReads s.mem m s.stepAccesses)
include agree

theorem fetch_agree : AgreeOnReads s.mem m s.fetchAccesses := fun a listed => agree a (List.mem_append_left _ listed)

theorem rule_agree {i : Instr} (fetched : s.fetch = some i) :
    AgreeOnReads s.mem m (((s.enter i).registers.over s.mem).ruleAccesses i) := fun a listed => by
  rw [State.enter_over] at listed
  exact agree a (by rw [stepAccesses_fetched fetched]; exact List.mem_append_right _ listed)

theorem fetch_over : (s.registers.over m).fetch = s.fetch := fetch_congr (r := s.registers) (fetch_agree agree)

theorem stepAccesses_congr : (s.registers.over m).stepAccesses = s.stepAccesses := by
  have opcode : (s.registers.over m).fetchAccesses = s.fetchAccesses :=
    fetchAccesses_congr (opcode_agree (r := s.registers) (fetch_agree agree))
  have instr := fetch_over agree
  rcases fetched : s.fetch with _ | i <;> rw [fetched] at instr
  · rw [stepAccesses_undefined instr, stepAccesses_undefined fetched, opcode]
  · rw [stepAccesses_fetched instr, stepAccesses_fetched fetched, opcode, over_enter,
      ruleAccesses_congr (rule_agree agree fetched), State.enter_over]

theorem stepReturn_step_congr (r : Registers) (opcode : Byte) :
    stepReturn r opcode (step (s.registers.over m)) = stepReturn r opcode (step s) := by
  have instr := fetch_over agree
  rcases fetched : s.fetch with _ | i <;> rw [fetched] at instr
  · have read : (s.registers.over m).read s.pc = s.read s.pc := opcode_agree (r := s.registers) (fetch_agree agree)
    rw [step_undefined instr, step_undefined fetched, Registers.over_pc, State.registers_pc, read]
  · rw [step_fetched instr, step_fetched fetched, over_enter,
      stepReturn_exec_congr (rule_agree agree fetched), State.enter_over]

end

/-- Outcomes that return the same to the host are the same error, or next states with the same registers. -/
theorem sameOutcome_of_stepReturn {r : Registers} {opcode : Byte} {x y : Result}
    (same : stepReturn r opcode y = stepReturn r opcode x) :
    (∀ t, x = .next t → ∃ t', y = .next t' ∧ SameRegisters t t') ∧ (∀ e, x = .fault e → y = .fault e) := by
  refine ⟨fun t h => ?_, fun e h => ?_⟩ <;> subst h
  · obtain t' | _ | _ := y <;> simp [stepReturn] at same
    exact ⟨t', rfl, sameRegisters_iff.mpr same⟩
  · obtain _ | _ | _ := y <;> simp [stepReturn] at same
    rw [same]

/-- Settles O54: the bytes at the listed reads fix the instruction fetched, and then its rule's accesses and result. -/
theorem stepDependsOnlyOnItsListedReads : Obligations.StepDependsOnlyOnItsListedReads :=
  fun s _ agree => ⟨stepAccesses_congr agree,
    sameOutcome_of_stepReturn (stepReturn_step_congr agree s.registers (s.read s.pc))⟩

/-! ### The accesses a step makes of its bus (R45, R55) -/

/-- `MeetsHostByAccesses` for one host, with the accesses named: the computation leaves the host as they leave it, and
with no host behind the bus, given the bytes the host answers along them, it uses each byte once, makes these accesses
and gives the same result. -/
def MakesAccesses {α μ : Type} (run : (μ : Type) → Bus μ → μ → α × μ) (bus : Bus μ) (h : μ) (log : List Access) : Prop :=
  (run μ bus h).2 = bus.replay log h ∧
  ∀ (rest : List Byte) (before : List Access),
    run Script Bus.scripted { inputs := bus.answers log h ++ rest, log := before } =
      ((run μ bus h).1, { inputs := rest, log := before ++ log })

section
variable {α β μ : Type} {run : (μ : Type) → Bus μ → μ → α × μ} {bus : Bus μ} {h : μ} {log : List Access}

theorem MakesAccesses.pure (a : α) : MakesAccesses (fun _ _ h => (a, h)) bus h [] :=
  ⟨rfl, fun _ _ => by simp [Bus.answers]⟩

/-- One computation after another, the second one chosen by the result of the first. -/
theorem MakesAccesses.bind {next : α → (μ : Type) → Bus μ → μ → β × μ} {log' : α → μ → List Access}
    (first : MakesAccesses run bus h log)
    (second : ∀ a h', run μ bus h = (a, h') → MakesAccesses (next a) bus h' (log' a h')) :
    MakesAccesses (fun μ bus h => next (run μ bus h).1 μ bus (run μ bus h).2) bus h
      (log ++ log' (run μ bus h).1 (run μ bus h).2) := by
  obtain ⟨host, scripted⟩ := first
  obtain ⟨host', scripted'⟩ := second _ _ rfl
  refine ⟨by rw [host', host, Bus.replay_append], fun rest before => ?_⟩
  simp only [Bus.answers_append, List.append_assoc, scripted, ← host, scripted']

theorem MakesAccesses.map (f : α → β) (makes : MakesAccesses run bus h log) :
    MakesAccesses (fun μ bus h => (f (run μ bus h).1, (run μ bus h).2)) bus h log := by
  have both := makes.bind fun a _ _ => .pure (f a)
  rwa [List.append_nil] at both

theorem Bus.readAll_makes (bus : Bus μ) (h : μ) (l : List Addr) :
    MakesAccesses (fun _ bus h => bus.readAll l h) bus h (l.map .read) :=
  ⟨by simp only [Bus.readAll_eq], fun rest before => by
    simp only [Bus.readAll_scripted _ _ _ _ (bus.length_answers_reads l h), Bus.readAll_eq]⟩

theorem Bus.writeAll_makes (bus : Bus μ) (h : μ) (l : List (Addr × Byte)) :
    MakesAccesses (fun _ bus h => ((), bus.writeAll l h)) bus h (l.map fun c => .write c.1 c.2) :=
  ⟨bus.writeAll_eq l h, fun rest before => by
    simp only [Bus.answers_writes, List.nil_append, Bus.writeAll_scripted]⟩

end

theorem reads_of_fetchAccesses_tail (s : State) :
    (s.fetchAccesses.tail.filterMap Access.readAddr).map .read = s.fetchAccesses.tail := by
  unfold State.fetchAccesses
  split <;> rfl

theorem reads_of_operandPointerAccesses (s : State) (o : Operand) :
    ((s.operandPointerAccesses o).filterMap Access.readAddr).map .read = s.operandPointerAccesses o := by
  rcases o with _ | _ | _ | o | _ | _
  case mem => cases o <;> rfl
  all_goals rfl

/-- Once its pointer is read, a rule makes its reads before its writes. -/
theorem resolved_reads_then_writes (i : Instr) (q s : State) :
    s.ruleAccesses (q.resolved i) =
      ((s.ruleAccesses (q.resolved i)).filterMap Access.readAddr).map .read ++
        ((s.ruleAccesses (q.resolved i)).filterMap Access.written).map fun c => .write c.1 c.2 := by
  cases i <;> rfl

theorem resolved_readAddrs (i : Instr) (q : State) (r : Registers) (m m' : Memory) :
    ((r.over m').ruleAccesses (q.resolved i)).filterMap Access.readAddr =
      ((r.over m).ruleAccesses (q.resolved i)).filterMap Access.readAddr := by
  cases i <;> rfl

/-- A fetch from a memory makes the accesses of R55 items 1 and 2. -/
theorem Bus.fetch_makes (r : Registers) (m : Memory) :
    MakesAccesses (fun _ bus h => bus.fetch r h) Bus.plain m (r.over m).fetchAccesses := by
  have makes := (Bus.readAll_makes Bus.plain m [r.pc]).bind fun opcode h _ =>
    (Bus.readAll_makes Bus.plain h ((r.given opcode).fetchAccesses.tail.filterMap Access.readAddr)).map fun operands =>
      r.given (opcode ++ operands)
  have opcode : (r.given (Bus.plain.readAll [r.pc] m).1).fetchAccesses = (r.over m).fetchAccesses :=
    fetchAccesses_congr (Memory.read_write_same [] r.pc (m.read r.pc))
  rw [reads_of_fetchAccesses_tail, opcode] at makes
  rw [fetchAccesses_eq_cons]
  exact makes

/-- A rule that runs on a memory makes the accesses of R55 items 3 and 4. -/
theorem Bus.runRule_makes (i : Instr) (r : Registers) (m : Memory) :
    MakesAccesses (fun _ bus h => bus.runRule i r h) Bus.plain m ((r.over m).ruleAccesses i) := by
  have makes := (Bus.readAll_makes Bus.plain m
      (((r.over []).operandPointerAccesses i.operand).filterMap Access.readAddr)).bind fun pointer h _ =>
    (Bus.readAll_makes Bus.plain h
      (((r.over []).ruleAccesses ((r.given pointer).resolved i)).filterMap Access.readAddr)).bind fun data h _ =>
    (Bus.writeAll_makes Bus.plain h
      (((r.given data).ruleAccesses ((r.given pointer).resolved i)).filterMap Access.written)).map fun _ =>
      exec ((r.given pointer).resolved i) (r.given data)
  have pointer : (r.over []).operandPointerAccesses i.operand = (r.over m).operandPointerAccesses i.operand :=
    operandPointerAccesses_over i.operand
  have resolved := resolved_congr (r := r) (i := i) (seenBy_agree m ((r.over m).operandPointerAccesses i.operand))
  have written := ruleAccesses_congr (seenBy_agree m ((r.over m).ruleAccesses ((r.over m).resolved i)))
  simp only [pointer, Bus.given_readAll_plain, Bus.host_readAll_plain, resolved,
    resolved_readAddrs i (r.over m) r m [], written, reads_of_operandPointerAccesses,
    ← resolved_reads_then_writes] at makes
  rw [resolved_ruleAccesses]
  exact makes

/-- Once the instruction's bytes are read, a step makes the accesses of its rule; an undefined opcode has none. -/
theorem Bus.afterFetch_makes {s : State} {fetched : Memory} (agree : AgreeOnReads s.mem fetched s.fetchAccesses) :
    ∃ log, s.stepAccesses = s.fetchAccesses ++ log ∧
      MakesAccesses (fun _ bus h => bus.afterFetch s.registers (s.registers.over fetched) h) Bus.plain s.mem log := by
  have instr : (s.registers.over fetched).fetch = s.fetch := fetch_congr (r := s.registers) agree
  unfold Bus.afterFetch
  rw [instr]
  rcases found : s.fetch with _ | i
  · exact ⟨[], by rw [stepAccesses_undefined found, List.append_nil], .pure _⟩
  · have makes := Bus.runRule_makes i (s.enter i).registers s.mem
    rw [State.enter_over] at makes
    dsimp only
    rw [enter_registers_over s.registers s.mem fetched, State.registers_over]
    exact ⟨_, stepAccesses_fetched found, makes.map (stepReturn s.registers _)⟩

/-- A step over the plain buffer makes the accesses of its list. -/
theorem Bus.step_makes (s : State) :
    MakesAccesses (fun _ bus h =>
      (((bus.step s.registers h).1, (bus.step s.registers h).2.1), (bus.step s.registers h).2.2)) Bus.plain s.mem
      s.stepAccesses := by
  obtain ⟨log, listed, after⟩ := Bus.afterFetch_makes (seenBy_agree s.mem s.fetchAccesses)
  simp only [Bus.step_eq, listed]
  refine (Bus.fetch_makes s.registers s.mem).bind (log' := fun _ _ => log)
    (next := fun fetched _ bus h => bus.afterFetch s.registers fetched h) fun fetched h got => ?_
  rw [Bus.fetch_plain] at got
  cases got
  exact after

/-- Settles O58: the fetch and the rule over the plain buffer make the two parts of the access list. -/
theorem busStepMakesTheListedAccesses : Obligations.BusStepMakesTheListedAccesses := by
  intro s
  have scripted := (Bus.step_makes s).2 [] []
  simp only [List.append_nil, List.nil_append, Prod.ext_iff] at scripted
  exact scripted.2

/-! ### The bytes answered are the bytes used (R45, R70, R74) -/

/-- A step over a bus, from its fetch and its rule. -/
theorem Bus.step_of_runRule {μ : Type} {bus : Bus μ} {r : Registers} {h h₁ h₂ : μ} {fetched t : State} {i : Instr}
    (fetch : bus.fetch r h = (fetched, h₁)) (found : fetched.fetch = some i)
    (ran : bus.runRule i (fetched.enter i).registers h₁ = (.next t, h₂)) :
    bus.step r h = (.ok { opcode := fetched.read r.pc, pc := r.pc }, t.registers, h₂) := by
  simp only [Bus.step, fetch, found, ran]

section
variable (r : Registers) (op b lo hi : Byte) (rest : List Byte)

@[simp] theorem Registers.given_pc (bytes : List (Addr × Byte)) : (r.given bytes).pc = r.pc := rfl

theorem fetchEntry_given_opcode : (r.given [(r.pc, op)]).fetchEntry = dispatch op :=
  congrArg dispatch (Memory.read_write_same [] r.pc op)

/-- A two-byte instruction is the two bytes answered (R62). -/
theorem Bus.fetch_scripted_two {mk : Byte → Instr} (entry : dispatch op = .two mk) :
    Bus.scripted.fetch r { inputs := op :: b :: rest, log := [] } =
      (r.given [(r.pc, op), (r.pc + 1, b)], { inputs := rest, log := [.read r.pc, .read (r.pc + 1)] }) := by
  simp [Bus.fetch, Bus.readAll, State.fetchAccesses, fetchEntry_given_opcode, entry, Entry.operandBytes,
    Access.readAddr]

/-- A three-byte instruction is the three bytes answered (R62). -/
theorem Bus.fetch_scripted_three {mk : Addr → Instr} (entry : dispatch op = .three mk) :
    Bus.scripted.fetch r { inputs := op :: lo :: hi :: rest, log := [] } =
      (r.given [(r.pc, op), (r.pc + 1, lo), (r.pc + 2, hi)],
        { inputs := rest, log := [.read r.pc, .read (r.pc + 1), .read (r.pc + 2)] }) := by
  simp [Bus.fetch, Bus.readAll, State.fetchAccesses, fetchEntry_given_opcode, entry, Entry.operandBytes,
    Access.readAddr]

theorem Memory.read_holding_pair {a a' : Addr} (apart : a ≠ a') :
    (Memory.holding [(a, lo), (a', hi)]).read a = lo ∧ (Memory.holding [(a, lo), (a', hi)]).read a' = hi :=
  ⟨(Memory.read_write_other _ hi apart).trans (Memory.read_write_same [] a lo), Memory.read_write_same _ a' hi⟩

theorem read_given_two :
    (r.given [(r.pc, op), (r.pc + 1, b)]).read r.pc = op ∧ (r.given [(r.pc, op), (r.pc + 1, b)]).read (r.pc + 1) = b :=
  Memory.read_holding_pair op b (by simp)

theorem read_given_three :
    (r.given [(r.pc, op), (r.pc + 1, lo), (r.pc + 2, hi)]).read r.pc = op ∧
    (r.given [(r.pc, op), (r.pc + 1, lo), (r.pc + 2, hi)]).read (r.pc + 1) = lo ∧
    (r.given [(r.pc, op), (r.pc + 1, lo), (r.pc + 2, hi)]).read (r.pc + 2) = hi := by
  simp [Registers.given_eq, State.read_eq, Memory.holding, Memory.read_write]

theorem fetch_given_two {mk : Byte → Instr} (entry : dispatch op = .two mk) :
    (r.given [(r.pc, op), (r.pc + 1, b)]).fetch = some (mk b) := by
  obtain ⟨opcode, operand⟩ := read_given_two r op b
  rw [State.fetch, State.fetchEntry, Registers.given_pc, opcode, operand, entry]
  rfl

theorem fetch_given_three {mk : Addr → Instr} (entry : dispatch op = .three mk) :
    (r.given [(r.pc, op), (r.pc + 1, lo), (r.pc + 2, hi)]).fetch = some (mk (hi ++ lo)) := by
  obtain ⟨opcode, low, high⟩ := read_given_three r op lo hi
  rw [State.fetch, State.fetchEntry, Registers.given_pc, opcode, low, high, entry]
  rfl

theorem zext16_ne_succ : zext16 b ≠ zext16 (b + 1) := by
  intro same
  have := congrArg BitVec.toNat same
  simp at this
  omega

/-- The pointer bytes answered give the address of (zp),Y (R74). -/
theorem ea_izy_given :
    (r.given [(zext16 b, lo), (zext16 (b + 1), hi)]).ea (.izy b) = (hi ++ lo) + zext16 r.y := by
  obtain ⟨low, high⟩ := Memory.read_holding_pair lo hi (zext16_ne_succ b)
  exact congrArg (· + zext16 r.y) (congrArg₂ joinBytes low high)

/-- The byte answered at an address is the operand there (R78). -/
theorem load_abs_given (ea : Addr) (m : Byte) : (r.given [(ea, m)]).load (.abs ea) = m :=
  Memory.read_write_same [] ea m

/-- LDA (zp),Y over given bytes reads its pointer and then its operand, at the address the pointer gives (R74, R180). -/
theorem Bus.runRule_scripted_ldaIzy (m : Byte) (before : List Access) :
    Bus.scripted.runRule (.ldaIzy b) r { inputs := lo :: hi :: m :: rest, log := before } =
      (.next ((r.given [((hi ++ lo) + zext16 r.y, m)]).assignA m),
        { inputs := rest, log := before ++ [.read (zext16 b)] ++ [.read (zext16 (b + 1))] ++
          [.read ((hi ++ lo) + zext16 r.y)] }) := by
  have ran : ∀ ea, (r.given [(zext16 b, lo), (zext16 (b + 1), hi)]).ea (.izy b) = ea →
      Bus.scripted.runRule (.ldaIzy b) r { inputs := lo :: hi :: m :: rest, log := before } =
        (loadA ((r.given [(ea, m)]).load (.abs ea)) (r.given [(ea, m)]),
          { inputs := rest, log := before ++ [.read (zext16 b)] ++ [.read (zext16 (b + 1))] ++ [.read ea] }) := by
    rintro _ rfl
    rfl
  rw [ran _ (ea_izy_given r b lo hi), load_abs_given, loadA_eq]

/-- INC abs over given bytes reads its operand once and writes the byte after it once (R70, R140). -/
theorem Bus.runRule_scripted_incAbs (ea : Addr) (m : Byte) (before : List Access) :
    Bus.scripted.runRule (.incAbs ea) r { inputs := m :: rest, log := before } =
      (.next (((r.given [(ea, m)]).write ea (m + 1)).withFlags (r.flags.setZN (m + 1))),
        { inputs := rest, log := before ++ [.read ea] ++ [.write ea (m + 1)] }) := by
  have ran : Bus.scripted.runRule (.incAbs ea) r { inputs := m :: rest, log := before } =
      (adjustMem 1 (.abs ea) (r.given [(ea, m)]),
        { inputs := rest, log := before ++ [.read ea] ++ [.write ea ((r.given [(ea, m)]).load (.abs ea) + 1)] }) := rfl
  rw [ran, adjustMem_eq, load_abs_given]
  rfl

end

/-- Settles O59: over the scripted bus the bytes given are the opcode, the operand, the pointer and the byte at EA in
the order of the access list, and each is read back from the address it was answered for. -/
theorem busAnswersAreTheBytesTheRuleUses : Obligations.BusAnswersAreTheBytesTheRuleUses := by
  intro r rest b lo hi m
  have lda : dispatch 0xB1 = .two .ldaIzy := rfl
  have inc : dispatch 0xEE = .three .incAbs := rfl
  constructor
  · rw [Bus.step_of_runRule (Bus.fetch_scripted_two r 0xB1 b (lo :: hi :: m :: rest) lda) (fetch_given_two r 0xB1 b lda)
      (Bus.runRule_scripted_ldaIzy _ b lo hi rest m _), (read_given_two r 0xB1 b).1]
    rfl
  · rw [Bus.step_of_runRule (Bus.fetch_scripted_three r 0xEE lo hi (m :: rest) inc) (fetch_given_three r 0xEE lo hi inc)
      (Bus.runRule_scripted_incAbs _ rest (hi ++ lo) m _), (read_given_three r 0xEE lo hi).1]
    rfl

end Sys2Proof.Machine

/-! PROOFS. The statements of 30_encoding.md: the decoder and the encoder (R60 to R64, R79 to R86), the fetch of a step
(R81 to R83), and the effective address of each mode (R67 to R75). -/

namespace Sys2Proof.Machine

/-! ### The decoder, by the entry of the opcode (R79) -/

section
variable {op : Byte} (b lo hi : Byte) (rest : List Byte)

theorem decode_undefined (entry : dispatch op = .undefined) : decode (op :: rest) = .error (.invalidOpcode op) := by
  simp only [decode, entry]

theorem decode_one {i : Instr} (entry : dispatch op = .one i) : decode (op :: rest) = .ok (i, rest) := by
  simp only [decode, entry]

theorem decode_two {mk : Byte → Instr} (entry : dispatch op = .two mk) :
    decode (op :: b :: rest) = .ok (mk b, rest) := by
  simp only [decode, entry]

theorem decode_three {mk : Addr → Instr} (entry : dispatch op = .three mk) :
    decode (op :: lo :: hi :: rest) = .ok (mk (joinBytes lo hi), rest) := by
  simp only [decode, entry]

end

/-- What a decode that succeeds has read: the opcode of an entry, and the operand bytes the entry takes (R62). -/
theorem decode_ok_cases {bytes : List Byte} {i : Instr} {rest : List Byte} (h : decode bytes = .ok (i, rest)) :
    ∃ op, (dispatch op = .one i ∧ bytes = op :: rest) ∨
      (∃ mk b, dispatch op = .two mk ∧ i = mk b ∧ bytes = op :: b :: rest) ∨
      ∃ mk lo hi, dispatch op = .three mk ∧ i = mk (joinBytes lo hi) ∧ bytes = op :: lo :: hi :: rest := by
  obtain _ | ⟨op, tail⟩ := bytes
  · cases h
  refine ⟨op, ?_⟩
  rcases entry : dispatch op with _ | j | mk | mk
  case undefined =>
    rw [decode_undefined _ entry] at h
    cases h
  case one =>
    rw [decode_one _ entry] at h
    cases h
    exact .inl ⟨rfl, rfl⟩
  case two =>
    obtain _ | ⟨b, tail⟩ := tail
    · simp [decode, entry] at h
    · rw [decode_two _ _ entry] at h
      cases h
      exact .inr (.inl ⟨mk, b, rfl, rfl, rfl⟩)
  case three =>
    obtain _ | ⟨lo, _ | ⟨hi, tail⟩⟩ := tail
    · simp [decode, entry] at h
    · simp [decode, entry] at h
    · rw [decode_three _ _ _ entry] at h
      cases h
      exact .inr (.inr ⟨mk, lo, hi, rfl, rfl, rfl⟩)

/-! ### The two tables agree (R60, R80, R83) -/

/-- An entry holds an instruction: it builds it from some operand, and every instruction it builds is encoded by this
one's opcode and the operand it is built from. -/
def EntryHolds (i : Instr) : Entry → Prop
  | .undefined => False
  | .one j => j = i ∧ encode j = [i.opcode]
  | .two mk => (∃ b, mk b = i) ∧ ∀ b, encode (mk b) = [i.opcode, b]
  | .three mk => (∃ w, mk w = i) ∧ ∀ w, encode (mk w) = [i.opcode, lowByte w, highByte w]

/-- The map of R80 holds each instruction at the opcode of its Encoding line. -/
theorem dispatch_opcode_holds (i : Instr) : EntryHolds i (dispatch i.opcode) := by
  cases i
  all_goals dsimp only [Instr.opcode]
  case aslAcc | lsrAcc | rolAcc | rorAcc | inx | iny | dex | dey | clc | sec | cli | sei | cld | sed | clv | tax | tay |
      txa | tya | tsx | txs | pha | pla | php | plp | rts | brk | rti | nop => exact ⟨rfl, rfl⟩
  all_goals exact ⟨⟨_, rfl⟩, fun _ => rfl⟩

/-- The map of R80, read at every opcode: nothing at those of R83, at any other an instruction with that opcode. -/
theorem opcode_of_build_dispatch : ∀ op : Byte,
    ((dispatch op).build 0 0).map Instr.opcode = if op ∈ undefinedOpcodes then none else some op := by
  decide

theorem entry_eq_undefined_of_build {e : Entry} {b1 b2 : Byte} (nothing : e.build b1 b2 = none) : e = .undefined := by
  cases e
  case undefined => rfl
  all_goals cases nothing

theorem dispatch_of_mem_undefinedOpcodes {op : Byte} (undefined : op ∈ undefinedOpcodes) :
    dispatch op = .undefined := by
  have built := opcode_of_build_dispatch op
  rw [if_pos undefined, Option.map_eq_none_iff] at built
  exact entry_eq_undefined_of_build built

theorem exists_opcode_of_notMem_undefinedOpcodes {op : Byte} (documented : op ∉ undefinedOpcodes) :
    ∃ i : Instr, i.opcode = op := by
  have built := opcode_of_build_dispatch op
  rw [if_neg documented, Option.map_eq_some_iff] at built
  obtain ⟨i, _, opcode⟩ := built
  exact ⟨i, opcode⟩

/-- An entry that is not the undefined marker holds an instruction whose opcode it stands at. -/
theorem dispatch_holds {op : Byte} (defined : dispatch op ≠ .undefined) :
    ∃ i : Instr, i.opcode = op ∧ EntryHolds i (dispatch op) := by
  obtain ⟨i, rfl⟩ := exists_opcode_of_notMem_undefinedOpcodes (mt dispatch_of_mem_undefinedOpcodes defined)
  exact ⟨i, rfl, dispatch_opcode_holds i⟩

/-- Settles O2: the entry at an instruction's opcode builds it from its operand bytes. -/
theorem decodeOfEncodeIsTheInstruction : Obligations.DecodeOfEncodeIsTheInstruction := by
  intro i rest
  have holds := dispatch_opcode_holds i
  rcases entry : dispatch i.opcode with _ | j | mk | mk <;> rw [entry] at holds
  case undefined => exact holds.elim
  case one =>
    obtain ⟨rfl, bytes⟩ := holds
    rw [bytes]
    exact decode_one rest entry
  case two =>
    obtain ⟨⟨b, rfl⟩, bytes⟩ := holds
    rw [bytes]
    exact decode_two b rest entry
  case three =>
    obtain ⟨⟨w, rfl⟩, bytes⟩ := holds
    rw [bytes]
    simpa using decode_three (lowByte w) (highByte w) rest entry

/-- Settles O3: what an entry builds is encoded by the entry's opcode and the bytes it was built from. -/
theorem encodeOfDecodeIsTheBytes : Obligations.EncodeOfDecodeIsTheBytes := by
  intro bytes i rest h
  obtain ⟨op, ⟨entry, rfl⟩ | ⟨mk, b, entry, rfl, rfl⟩ | ⟨mk, lo, hi, entry, rfl, rfl⟩⟩ := decode_ok_cases h
  all_goals
    obtain ⟨j, rfl, holds⟩ := dispatch_holds (op := op) (by simp [entry])
    rw [entry] at holds
    obtain ⟨_, encoded⟩ := holds
    simp [encoded]

/-! ### Every byte decodes or is undefined (R83, R85) -/

/-- Settles O4: the undefined marker stands at the opcodes of R83, and any other entry takes two operand bytes at most. -/
theorem decodingIsTotal : Obligations.DecodingIsTotal := by
  refine ⟨rfl, by decide, fun op b1 b2 rest => ⟨fun undefined => ?_, fun documented => ?_⟩⟩
  · exact decode_undefined rest (dispatch_of_mem_undefinedOpcodes undefined)
  · obtain ⟨i, rfl⟩ := exists_opcode_of_notMem_undefinedOpcodes documented
    have holds := dispatch_opcode_holds i
    rcases entry : dispatch i.opcode with _ | j | mk | mk
    case undefined => rw [entry] at holds; exact holds.elim
    case one => exact ⟨_, _, decode_one _ entry⟩
    case two => exact ⟨_, _, decode_two b1 _ entry⟩
    case three => exact ⟨_, _, decode_three b1 b2 rest entry⟩

theorem length_encode (i : Instr) : (encode i).length = i.mode.length := by
  cases i <;> rfl

/-- Settles O5: the bytes a decode consumes are the encoding of its instruction, which has the length of the mode. -/
theorem lengthIsOfTheModeAlone : Obligations.LengthIsOfTheModeAlone := by
  refine ⟨rfl, rfl, rfl, fun bytes i rest h => ?_⟩
  rw [← encodeOfDecodeIsTheBytes bytes i rest h, List.length_append, length_encode]

/-- Settles O1: the decoder run on each word. -/
theorem decodesWordsWrittenFromTheTable : Obligations.DecodesWordsWrittenFromTheTable :=
  ⟨rfl, rfl, rfl, rfl, rfl, rfl, rfl⟩

/-! ### The instruction a step fetches (R62, R81, R82) -/

/-- An entry builds from two operand bytes what the decoder reads from them. -/
theorem build_eq_decode (op b1 b2 : Byte) (rest : List Byte) :
    (dispatch op).build b1 b2 = (decode (op :: b1 :: b2 :: rest)).toOption.map Prod.fst := by
  rcases entry : dispatch op with _ | i | mk | mk
  case undefined => rw [decode_undefined _ entry]; rfl
  case one => rw [decode_one _ entry]; rfl
  case two => rw [decode_two _ _ entry]; rfl
  case three => rw [decode_three _ _ _ entry]; rfl

theorem add_ofNat_eq_ofNat_toNat_add (a : Addr) (n : Nat) : a + BitVec.ofNat 16 n = BitVec.ofNat 16 (a.toNat + n) := by
  rw [BitVec.ofNat_add, BitVec.ofNat_toNat, BitVec.setWidth_eq]

theorem fetch_eq_decode (s : State) : s.fetch = (decode (bytesAtPc s)).toOption.map Prod.fst := by
  rw [bytesAtPc, ← add_ofNat_eq_ofNat_toNat_add, ← add_ofNat_eq_ofNat_toNat_add]
  exact build_eq_decode _ _ _ []

theorem raisesUnimplemented_iff (i : Instr) : raisesUnimplemented i = true ↔ i = .brk ∨ i = .rti := by
  cases i <;> simp [raisesUnimplemented, Instr.mnemonic]

/-- PC is advanced by the length of the instruction, but for BRK and RTI (R81 step 4, R231). -/
theorem enter_eq (s : State) (i : Instr) :
    s.enter i = if i = .brk ∨ i = .rti then s else s.withPc (BitVec.ofNat 16 (s.pc.toNat + i.mode.length)) := by
  simp only [State.enter, raisesUnimplemented_iff, Instr.length, add_ofNat_eq_ofNat_toNat_add]

theorem hostStep_next {s t : State} (h : step s = .next t) :
    hostStep s = (.ok { opcode := s.read s.pc, pc := s.pc }, t) := by
  simp only [hostStep, h]

/-- Settles O6: the step fetches what the bytes at PC decode to. -/
theorem stepRunsTheDecodedInstruction : Obligations.StepRunsTheDecodedInstruction := by
  refine fun s => ⟨fun i rest decoded => ?_, fun e rejected => ?_, fun t h => hostStep_next h⟩
  · have fetched : s.fetch = some i := by rw [fetch_eq_decode, decoded]; rfl
    rw [step_fetched fetched, enter_eq]
  · exact hostStep_undefined (by rw [fetch_eq_decode, rejected]; rfl)

/-- Settles O7: at an undefined opcode nothing is fetched and no operand byte is read. -/
theorem undefinedOpcodeReturnsInvalidOpcode : Obligations.UndefinedOpcodeReturnsInvalidOpcode := by
  intro s undefined
  have entry : s.fetchEntry = .undefined := dispatch_of_mem_undefinedOpcodes undefined
  have fetched : s.fetch = none := by rw [State.fetch, entry]; rfl
  refine ⟨step_undefined fetched, hostStep_undefined fetched, ?_⟩
  rw [stepAccesses_undefined fetched, State.fetchAccesses, entry]
  rfl

/-! ### The modes of each mnemonic (R61, R63) -/

theorem mode_mem_modes (i : Instr) : i.mode ∈ i.mnemonic.modes := by
  have wf : i.wf = true := by cases i <;> rfl
  simpa [Instr.wf, formExists] using wf

theorem mnemonic_of_zpy_mem_modes {mn : Mnemonic} (h : .zpy ∈ mn.modes) : mn = .ldx ∨ mn = .stx := by
  cases mn <;> simp_all [Mnemonic.modes]

theorem mnemonic_of_ind_mem_modes {mn : Mnemonic} (h : .ind ∈ mn.modes) : mn = .jmp := by
  cases mn <;> simp_all [Mnemonic.modes]

theorem mnemonic_of_rel_mem_modes {mn : Mnemonic} (h : .rel ∈ mn.modes) :
    mn ∈ [Mnemonic.bpl, .bmi, .bvc, .bvs, .bcc, .bcs, .bne, .beq] := by
  cases mn <;> simp_all [Mnemonic.modes]

/-! ### Effective addresses as numbers (R67 to R75) -/

/-- Settles O20: an 8-bit sum, extended, is below 256; the mode table gives ZPY to LDX and STX. -/
theorem zeroPageAddressesStayInPageZero : Obligations.ZeroPageAddressesStayInPageZero :=
  ⟨fun s b => by simp [State.ea], fun i h => mnemonic_of_zpy_mem_modes (h ▸ mode_mem_modes i)⟩

/-- Settles O21: the operand is its two bytes joined, and the sum is one of 16-bit values. -/
theorem absoluteAddressesAreSixteenBitSums : Obligations.AbsoluteAddressesAreSixteenBitSums := by
  intro s lo hi
  have operand : (hi ++ lo : Addr).toNat = hi.toNat * 256 + lo.toNat := by
    have joined := joinBytes_toNat lo hi
    rwa [Nat.add_comm, Nat.mul_comm] at joined
  refine ⟨operand, ?_, ?_⟩ <;> rw [State.ea, BitVec.toNat_add, operand, zext16_toNat]

theorem zext16_eq_ofNat (v : Byte) : zext16 v = BitVec.ofNat 16 v.toNat := (BitVec.ofNat_toNat 16 v).symm

theorem zeroPagePointer_toNat (s : State) (p : Byte) :
    (s.zeroPagePointer p).toNat =
      (s.read (BitVec.ofNat 16 p.toNat)).toNat + 256 * (s.read (BitVec.ofNat 16 ((p.toNat + 1) % 256))).toNat := by
  rw [State.zeroPagePointer, joinBytes_toNat, zext16_eq_ofNat, zext16_eq_ofNat, BitVec.toNat_add]
  rfl

/-- Settles O22: both modes read their word at a zero-page pointer, whose two addresses are bytes. -/
theorem zeroPagePointersWrapInPageZero : Obligations.ZeroPagePointersWrapInPageZero := by
  intro s b
  dsimp only
  constructor
  · rw [State.ea, zeroPagePointer_toNat, BitVec.toNat_add, Nat.mod_mod]
  · rw [State.ea, BitVec.toNat_add, zeroPagePointer_toNat, zext16_toNat, Nat.mod_eq_of_lt b.isLt]

theorem indirectHighAddr_of_low_ne {ptr : Addr} (inPage : ptr.toNat % 256 ≠ 255) (wrap : Bool) :
    indirectHighAddr wrap ptr = ptr + 1 := by
  refine if_neg fun low => inPage ?_
  rw [← lowByte_toNat, low]
  rfl

/-- Settles O23: the two bytes joined, the high one from the address of R72, whose two readings differ at a page end
only; the mode table gives IND to JMP. -/
theorem indirectJumpReadsThePointerUnderBothParameterValues :
    Obligations.IndirectJumpReadsThePointerUnderBothParameterValues := by
  refine ⟨fun s ptr => ⟨?_, ?_, fun inPage => ?_, rfl⟩, fun i h => mnemonic_of_ind_mem_modes (h ▸ mode_mem_modes i)⟩
  · rw [State.eaIndirectWith, indirectHighAddr_eq]
    rfl
  · rw [State.eaIndirectWith, indirectHighAddr_eq, ← add_ofNat_eq_ofNat_toNat_add]
    rfl
  · rw [State.eaIndirectWith, State.eaIndirectWith, indirectHighAddr_of_low_ne inPage, indirectHighAddr_of_low_ne inPage]

/-- Settles O24: adding the sign-extended offset mod 2^16 adds its signed value; the mode table gives REL to the
branches. -/
theorem branchTargetIsPcPlusSignedOffset : Obligations.BranchTargetIsPcPlusSignedOffset := by
  refine ⟨fun s off => ⟨?_, off.le_toInt, Int.le_sub_one_of_lt off.toInt_lt⟩,
    fun i h => mnemonic_of_rel_mem_modes (h ▸ mode_mem_modes i)⟩
  have extended : ((sext16 off).toNat : Int) = off.toInt % 65536 := by
    rw [← sext16_toInt, BitVec.toInt_eq_toNat_cond]
    have := (sext16 off).isLt
    split <;> omega
  rw [State.relTarget, BitVec.toNat_add]
  omega

end Sys2Proof.Machine

/-! PROOFS. The statements of 40_logic.md: ORA, AND, EOR and BIT (R100 to R103), each a rule on the operand byte, which
its forms run on the byte of their mode. -/

namespace Sys2Proof.Machine

/-! ### The forms of a rule -/

/-- From every state, the rule completes with `post`, whatever its operand. -/
def Performs {α : Type} (rule : α → State → Result) (post : α → State → State → Prop) : Prop :=
  ∀ m s, ∃ t, rule m s = .next t ∧ post m s t

section
variable {α : Type} {rule : α → State → Result} {post : α → State → State → Prop} {op : Byte}

/-- A two-byte form whose meaning is the rule on `operand b s` (R62, R79). -/
theorem Performs.runsTwo (performs : Performs rule post) {mk : Byte → Instr} {operand : Byte → State → α}
    (entry : dispatch op = .two mk) (meaning : ∀ b s, exec (mk b) s = rule (operand b s) s) :
    RunsTwo op mk fun b s t => post (operand b s) s t := by
  refine fun b => ⟨fun rest => decode_two b rest entry, fun s => ?_⟩
  rw [meaning]
  exact performs (operand b s) s

/-- A three-byte form whose meaning is the rule on `operand w s`, the word low byte first (R62, R79). -/
theorem Performs.runsThree (performs : Performs rule post) {mk : Addr → Instr} {operand : Addr → State → α}
    (entry : dispatch op = .three mk) (meaning : ∀ w s, exec (mk w) s = rule (operand w s) s) :
    RunsThree op mk fun w s t => post (operand w s) s t := by
  refine ⟨fun lo hi rest => decode_three lo hi rest entry, fun w s => ?_⟩
  rw [meaning]
  exact performs (operand w s) s

end

/-! ### SetZN (R26) and the bits BIT copies (R103), as numbers -/

theorem showsZN_of_flags_eq {t : State} {f : Flags} {r : Byte} (flags : t.flags = f.setZN r) : ShowsZN t r := by
  rw [ShowsZN, flags]
  exact ⟨beq_iff_eq, getLsbD_seven r⟩

theorem getLsbD_six (v : Byte) : v.getLsbD 6 = true ↔ 64 ≤ v.toNat % 128 := by
  rw [BitVec.getLsbD, Nat.testBit_eq_decide_div_mod_eq]
  simp
  omega

/-! ### What the rules do -/

theorem givesA_assignA (r : Byte) (s : State) : GivesA r s (s.assignA r) :=
  ⟨rfl, showsZN_of_flags_eq rfl, ⟨rfl, rfl, rfl, rfl, rfl, rfl⟩, ⟨rfl, rfl, rfl⟩, rfl, fun _ => rfl⟩

theorem accumulateOra_performs : Performs accumulateOra OraEffect :=
  fun m s => ⟨_, accumulateOra_eq m s, givesA_assignA _ s⟩

theorem accumulateAnd_performs : Performs accumulateAnd AndEffect :=
  fun m s => ⟨_, accumulateAnd_eq m s, givesA_assignA _ s⟩

theorem accumulateEor_performs : Performs accumulateEor EorEffect :=
  fun m s => ⟨_, accumulateEor_eq m s, givesA_assignA _ s⟩

theorem testBits_performs : Performs testBits BitEffect :=
  fun m s => ⟨_, testBits_eq m s, getLsbD_seven m, getLsbD_six m, beq_iff_eq, rfl, ⟨rfl, rfl, rfl, rfl⟩,
    ⟨rfl, ⟨rfl, rfl, rfl⟩, rfl⟩, fun _ => rfl⟩

/-! ### The statements: each form has its table entry, and its meaning is the rule on the operand of its mode -/

/-- Settles O25: the eight forms of each mnemonic run one rule, and the rule is an assignment to A. -/
theorem logicInstructionsAccumulate : Obligations.LogicInstructionsAccumulate :=
  ⟨accumulateOra_performs.runsTwo rfl fun _ _ => rfl,
   accumulateOra_performs.runsTwo rfl fun _ _ => rfl,
   accumulateOra_performs.runsTwo rfl fun _ _ => rfl,
   accumulateOra_performs.runsThree rfl fun _ _ => rfl,
   accumulateOra_performs.runsThree rfl fun _ _ => rfl,
   accumulateOra_performs.runsThree rfl fun _ _ => rfl,
   accumulateOra_performs.runsTwo rfl fun _ _ => rfl,
   accumulateOra_performs.runsTwo rfl fun _ _ => rfl,
   accumulateAnd_performs.runsTwo rfl fun _ _ => rfl,
   accumulateAnd_performs.runsTwo rfl fun _ _ => rfl,
   accumulateAnd_performs.runsTwo rfl fun _ _ => rfl,
   accumulateAnd_performs.runsThree rfl fun _ _ => rfl,
   accumulateAnd_performs.runsThree rfl fun _ _ => rfl,
   accumulateAnd_performs.runsThree rfl fun _ _ => rfl,
   accumulateAnd_performs.runsTwo rfl fun _ _ => rfl,
   accumulateAnd_performs.runsTwo rfl fun _ _ => rfl,
   accumulateEor_performs.runsTwo rfl fun _ _ => rfl,
   accumulateEor_performs.runsTwo rfl fun _ _ => rfl,
   accumulateEor_performs.runsTwo rfl fun _ _ => rfl,
   accumulateEor_performs.runsThree rfl fun _ _ => rfl,
   accumulateEor_performs.runsThree rfl fun _ _ => rfl,
   accumulateEor_performs.runsThree rfl fun _ _ => rfl,
   accumulateEor_performs.runsTwo rfl fun _ _ => rfl,
   accumulateEor_performs.runsTwo rfl fun _ _ => rfl⟩

/-- Settles O26: both forms run the rule of BIT, which replaces the flags alone. -/
theorem bitTestsMemoryAgainstA : Obligations.BitTestsMemoryAgainstA :=
  ⟨testBits_performs.runsTwo rfl fun _ _ => rfl, testBits_performs.runsThree rfl fun _ _ => rfl⟩

end Sys2Proof.Machine

/-! PROOFS. The statements of 41_shift_rotate.md: ASL, LSR, ROL and ROR (R110 to R114), each a function on a value and
the old carry, which its forms apply to A or to the byte at EA. -/

namespace Sys2Proof.Machine

/-! ### The four functions, as numbers (R111 to R114) -/

theorem bitAt_toNat {k : Nat} (bit : k < 8) (b : Bool) : (bitAt k b).toNat = 2 ^ k * b.toNat := by
  cases b
  · simp [bitAt]
  · have fits : 2 ^ k < 2 ^ 8 := Nat.pow_lt_pow_right (by decide) bit
    simpa [bitAt, Nat.shiftLeft_eq] using fits

/-- Setting a bit that is clear adds its weight (R7). -/
theorem or_bitAt_toNat {v : Byte} {k : Nat} (bit : k < 8) (clear : v.getLsbD k = false) (b : Bool) :
    (v ||| bitAt k b).toNat = v.toNat + 2 ^ k * b.toNat := by
  have apart : v &&& bitAt k b = 0 := by
    ext j hj
    rw [BitVec.getElem_and, getElem_bitAt k b hj]
    by_cases same : j = k
    · subst same
      simp [← BitVec.getLsbD_eq_getElem, clear]
    · simp [same]
  rw [← BitVec.add_eq_or_of_and_eq_zero _ _ apart, BitVec.toNat_add_of_and_eq_zero apart, bitAt_toNat bit]

theorem shiftLeft_one_toNat (v : Byte) : (v <<< 1).toNat = 2 * v.toNat % 256 := by
  rw [BitVec.toNat_shiftLeft, Nat.shiftLeft_eq, Nat.mul_comm]

theorem shiftRight_one_toNat (v : Byte) : (v >>> 1).toNat = v.toNat / 2 := by
  rw [BitVec.toNat_ushiftRight, Nat.shiftRight_one]

/-- The function gives the result and the carry out of the rule. -/
def Computes (f : Byte → Bool → Byte × Bool) (rule : ShiftRule) : Prop :=
  ∀ v cin, (f v cin).1.toNat = (rule v.toNat cin.toNat).1 ∧ ((f v cin).2 = true ↔ (rule v.toNat cin.toNat).2)

theorem aslByte_computes : Computes aslByte aslRule := fun v _ => ⟨shiftLeft_one_toNat v, getLsbD_seven v⟩

theorem lsrByte_computes : Computes lsrByte lsrRule := fun v _ => ⟨shiftRight_one_toNat v, getLsbD_zero v⟩

/-- The left shift vacates bit 0, where the old carry enters (R113). -/
theorem rolByte_computes : Computes rolByte rolRule := by
  refine fun v cin => ⟨?_, getLsbD_seven v⟩
  have vacated : (v <<< 1).getLsbD 0 = false := by simp
  have carry := cin.toNat_lt
  rw [rolByte, rolRule, or_bitAt_toNat (by decide) vacated, shiftLeft_one_toNat]
  omega

/-- The right shift vacates bit 7, where the old carry enters (R114). -/
theorem rorByte_computes : Computes rorByte rorRule := by
  refine fun v cin => ⟨?_, getLsbD_zero v⟩
  have vacated : (v >>> 1).getLsbD 7 = false := by simp
  rw [rorByte, rorRule, or_bitAt_toNat (by decide) vacated, shiftRight_one_toNat]
  rfl

/-! ### The accumulator form and the memory form (R110) -/

theorem storesByte_write (s : State) (ea : Addr) (v : Byte) : StoresByte s (s.write ea v) ea v :=
  ⟨Memory.read_write_same s.mem ea v, fun _ other => Memory.read_write_other s.mem v other⟩

/-- A one-byte form whose meaning is the rule (R79). -/
theorem runsOne_of_rule {rule : State → Result} {post : State → State → Prop} {op : Byte} {i : Instr}
    (completes : ∀ s, ∃ t, rule s = .next t ∧ post s t) (entry : dispatch op = .one i)
    (meaning : ∀ s, exec i s = rule s) : RunsOne op i post := by
  refine ⟨fun rest => decode_one rest entry, fun s => ?_⟩
  rw [meaning]
  exact completes s

section
variable {f : Byte → Bool → Byte × Bool} {rule : ShiftRule}

theorem Computes.shiftA_completes (computes : Computes f rule) (s : State) :
    ∃ t, shiftA f s = .next t ∧ ShiftsA rule s t := by
  obtain ⟨result, carry⟩ := computes s.a s.flags.c
  exact ⟨_, shiftA_eq f s, result, carry, showsZN_of_flags_eq rfl, rfl, ⟨rfl, rfl, rfl, rfl⟩,
    ⟨rfl, rfl, rfl⟩, rfl, fun _ => rfl⟩

theorem Computes.shiftMem_performs (computes : Computes f rule) :
    Performs (shiftMem f) fun o s t => ShiftsAt rule (s.ea o) s t := by
  intro o s
  obtain ⟨result, carry⟩ := computes (s.load o) s.flags.c
  exact ⟨_, shiftMem_eq f o s, _, result, carry, showsZN_of_flags_eq rfl, rfl, ⟨rfl, rfl, rfl, rfl⟩,
    ⟨rfl, ⟨rfl, rfl, rfl⟩, rfl⟩, storesByte_write _ _ _⟩

end

/-- Settles O27: the five forms of each mnemonic apply one function, whose result and carry are the rule's. -/
theorem shiftsMoveOneBitIntoCarry : Obligations.ShiftsMoveOneBitIntoCarry :=
  ⟨runsOne_of_rule aslByte_computes.shiftA_completes rfl fun _ => rfl,
   aslByte_computes.shiftMem_performs.runsTwo rfl fun _ _ => rfl,
   aslByte_computes.shiftMem_performs.runsTwo rfl fun _ _ => rfl,
   aslByte_computes.shiftMem_performs.runsThree rfl fun _ _ => rfl,
   aslByte_computes.shiftMem_performs.runsThree rfl fun _ _ => rfl,
   runsOne_of_rule lsrByte_computes.shiftA_completes rfl fun _ => rfl,
   lsrByte_computes.shiftMem_performs.runsTwo rfl fun _ _ => rfl,
   lsrByte_computes.shiftMem_performs.runsTwo rfl fun _ _ => rfl,
   lsrByte_computes.shiftMem_performs.runsThree rfl fun _ _ => rfl,
   lsrByte_computes.shiftMem_performs.runsThree rfl fun _ _ => rfl⟩

/-- Settles O28: the five forms of each mnemonic apply one function, with the old carry in the bit the shift vacates. -/
theorem rotatesGoThroughCarry : Obligations.RotatesGoThroughCarry :=
  ⟨runsOne_of_rule rolByte_computes.shiftA_completes rfl fun _ => rfl,
   rolByte_computes.shiftMem_performs.runsTwo rfl fun _ _ => rfl,
   rolByte_computes.shiftMem_performs.runsTwo rfl fun _ _ => rfl,
   rolByte_computes.shiftMem_performs.runsThree rfl fun _ _ => rfl,
   rolByte_computes.shiftMem_performs.runsThree rfl fun _ _ => rfl,
   runsOne_of_rule rorByte_computes.shiftA_completes rfl fun _ => rfl,
   rorByte_computes.shiftMem_performs.runsTwo rfl fun _ _ => rfl,
   rorByte_computes.shiftMem_performs.runsTwo rfl fun _ _ => rfl,
   rorByte_computes.shiftMem_performs.runsThree rfl fun _ _ => rfl,
   rorByte_computes.shiftMem_performs.runsThree rfl fun _ _ => rfl⟩

/-! ### ROL A rotates the nine bits C and A (R113) -/

/-- C above the eight bits of A. -/
def State.carryAndA (s : State) : BitVec 9 := .cons s.flags.c s.a

theorem State.carryAndA_inj {s t : State} (same : t.carryAndA = s.carryAndA) : t.a = s.a ∧ t.flags.c = s.flags.c :=
  ⟨by simpa [State.carryAndA] using congrArg (BitVec.setWidth 8) same,
   by simpa [State.carryAndA] using congrArg BitVec.msb same⟩

/-- Bit 7 goes to C, the old C to bit 0, and every other bit one place up. -/
theorem cons_rolByte (v : Byte) (cin : Bool) :
    BitVec.cons (rolByte v cin).2 (rolByte v cin).1 = (BitVec.cons cin v).rotateLeft 1 := by
  ext j hj
  interval_cases j <;> simp [rolByte, BitVec.getElem_cons, BitVec.getElem_rotateLeft]

/-- ROL A is one place of a rotation of C and A together. -/
theorem exec_rolAcc_rotates (s : State) :
    ∃ t, exec .rolAcc s = .next t ∧ t.carryAndA = s.carryAndA.rotateLeft 1 :=
  ⟨_, shiftA_eq rolByte s, cons_rolByte s.a s.flags.c⟩

/-- Bit by bit, nine single places are a whole turn of nine bits. -/
theorem rotateLeft_one_iterate_nine (x : BitVec 9) : (BitVec.rotateLeft · 1)^[9] x = x := by
  ext j hj
  interval_cases j <;> simp [BitVec.getElem_rotateLeft]

/-- Settles O29: each ROL A turns C and A together by one place, and nine places are a whole turn. -/
theorem nineRotationsRestoreAAndCarry : Obligations.NineRotationsRestoreAAndCarry := by
  intro s
  obtain ⟨t1, e1, r1⟩ := exec_rolAcc_rotates s
  obtain ⟨t2, e2, r2⟩ := exec_rolAcc_rotates t1
  obtain ⟨t3, e3, r3⟩ := exec_rolAcc_rotates t2
  obtain ⟨t4, e4, r4⟩ := exec_rolAcc_rotates t3
  obtain ⟨t5, e5, r5⟩ := exec_rolAcc_rotates t4
  obtain ⟨t6, e6, r6⟩ := exec_rolAcc_rotates t5
  obtain ⟨t7, e7, r7⟩ := exec_rolAcc_rotates t6
  obtain ⟨t8, e8, r8⟩ := exec_rolAcc_rotates t7
  obtain ⟨t9, e9, r9⟩ := exec_rolAcc_rotates t8
  have turned : t9.carryAndA = s.carryAndA := by
    rw [r9, r8, r7, r6, r5, r4, r3, r2, r1]
    exact rotateLeft_one_iterate_nine s.carryAndA
  exact ⟨t1, t2, t3, t4, t5, t6, t7, t8, t9, e1, e2, e3, e4, e5, e6, e7, e8, e9, State.carryAndA_inj turned⟩

end Sys2Proof.Machine

/-! PROOFS. The statements of 42_arithmetic.md: ADC and SBC (R120 to R123), each a sum of A, the operand and the old
carry, which its forms take of the byte of their mode. -/

namespace Sys2Proof.Machine

/-! ### The two sums, as numbers (R121, R122) -/

theorem getLsbD_seven_eq_iff (v w : Byte) : v.getLsbD 7 = w.getLsbD 7 ↔ (128 ≤ v.toNat ↔ 128 ≤ w.toNat) := by
  rw [Bool.eq_iff_iff, getLsbD_seven, getLsbD_seven]

section
variable (a m : Byte) (cin : Bool)

theorem adcByte_r_toNat : (adcByte a m cin).r.toNat = (a.toNat + m.toNat + cin.toNat) % 256 := BitVec.toNat_ofNat _ _

theorem adcByte_c_iff : (adcByte a m cin).c = true ↔ 255 < a.toNat + m.toNat + cin.toNat := decide_eq_true_iff

theorem adcByte_v_iff :
    (adcByte a m cin).v = true ↔ a.getLsbD 7 = m.getLsbD 7 ∧ (adcByte a m cin).r.getLsbD 7 ≠ a.getLsbD 7 := by
  simp [adcByte]

theorem sbcByte_r_toNat :
    ((sbcByte a m cin).r.toNat : Int) = ((a.toNat : Int) - m.toNat - (1 - cin.toNat)) % 256 := by
  rw [sbcByte, BitVec.toNat_ofInt, Int.toNat_of_nonneg (Int.emod_nonneg _ (by decide))]
  rfl

theorem sbcByte_c_iff : (sbcByte a m cin).c = true ↔ 0 ≤ (a.toNat : Int) - m.toNat - (1 - cin.toNat) :=
  decide_eq_true_iff

theorem sbcByte_v_iff :
    (sbcByte a m cin).v = true ↔ a.getLsbD 7 ≠ m.getLsbD 7 ∧ (sbcByte a m cin).r.getLsbD 7 ≠ a.getLsbD 7 := by
  simp [sbcByte]

/-! ### SBC is ADC of the operand's complement (R122) -/

theorem xor_ff_eq_not : m ^^^ 0xFF = ~~~m := BitVec.xor_allOnes

/-- A − m − (1 − C) and A + (255 − m) + C differ by 256: one byte, and a carry exactly when there is no borrow. -/
theorem sbcByte_eq_adcByte_not : sbcByte a m cin = adcByte a (~~~m) cin := by
  have operand : (~~~m).toNat = 255 - m.toNat := BitVec.toNat_not
  have result : (sbcByte a m cin).r = (adcByte a (~~~m) cin).r := by
    have difference := sbcByte_r_toNat a m cin
    have sum := adcByte_r_toNat a (~~~m) cin
    apply BitVec.eq_of_toNat_eq
    omega
  have carry : (sbcByte a m cin).c = (adcByte a (~~~m) cin).c := by
    rw [Bool.eq_iff_iff, sbcByte_c_iff, adcByte_c_iff]
    omega
  have overflow : (sbcByte a m cin).v = (adcByte a (~~~m) cin).v := by
    have sign : (~~~m).getLsbD 7 = !m.getLsbD 7 := BitVec.getLsbD_not
    rw [Bool.eq_iff_iff, sbcByte_v_iff, adcByte_v_iff, result, sign, ← Bool.eq_not]
  exact (Sum.mk.injEq ..).mpr ⟨result, carry, overflow⟩

/-! ### The sums in two's complement (R120) -/

theorem adcByte_r_eq : (adcByte a m cin).r = a + m + BitVec.ofNat 8 cin.toNat := by
  simp [adcByte, BitVec.ofNat_add]

theorem adcByte_v_iff_signed :
    (adcByte a m cin).v = true ↔
      a.toInt + m.toInt + cin.toNat < -128 ∨ 127 < a.toInt + m.toInt + cin.toNat := by
  have result := adcByte_r_toNat a m cin
  have carry := cin.toNat_lt
  rw [adcByte_v_iff, Ne, getLsbD_seven_eq_iff, getLsbD_seven_eq_iff, BitVec.toInt_eq_toNat_cond,
    BitVec.toInt_eq_toNat_cond]
  split <;> split <;> omega

theorem sbcByte_r_eq : (sbcByte a m cin).r = a - m - BitVec.ofNat 8 (1 - cin.toNat) := by
  rw [sbcByte_eq_adcByte_not, adcByte_r_eq]
  cases cin <;> bv_omega

theorem sbcByte_v_iff_signed :
    (sbcByte a m cin).v = true ↔
      a.toInt - m.toInt - (1 - cin.toNat) < -128 ∨ 127 < a.toInt - m.toInt - (1 - cin.toNat) := by
  have operand : (~~~m).toInt = -m.toInt - 1 := by
    rw [BitVec.toInt_eq_toNat_cond, BitVec.toInt_eq_toNat_cond, BitVec.toNat_not]
    split <;> split <;> omega
  rw [sbcByte_eq_adcByte_not, adcByte_v_iff_signed, operand]
  omega

end

/-! ### What the rules do -/

/-- A rule of this family: A becomes the sum of A, the operand and the old carry. -/
def accumulateSum (sum : Byte → Byte → Bool → Sum) (m : Byte) (s : State) : Result :=
  assignSum (sum s.a m s.flags.c) s

theorem accumulateSum_eq (sum : Byte → Byte → Bool → Sum) (m : Byte) (s : State) :
    accumulateSum sum m s =
      .next ((s.withA (sum s.a m s.flags.c).r).withFlags (s.flags.summed (sum s.a m s.flags.c))) := rfl

theorem accumulateSum_adcByte_performs : Performs (accumulateSum adcByte) AdcEffect :=
  fun m s => ⟨_, accumulateSum_eq adcByte m s, adcByte_r_toNat _ _ _, adcByte_c_iff _ _ _, adcByte_v_iff _ _ _,
    showsZN_of_flags_eq rfl, ⟨rfl, rfl, rfl, rfl⟩, ⟨rfl, rfl, rfl⟩, rfl, fun _ => rfl⟩

theorem accumulateSum_sbcByte_performs : Performs (accumulateSum sbcByte) SbcEffect :=
  fun m s => ⟨_, accumulateSum_eq sbcByte m s, sbcByte_r_toNat _ _ _, sbcByte_c_iff _ _ _, sbcByte_v_iff _ _ _,
    showsZN_of_flags_eq rfl, ⟨rfl, rfl, rfl, rfl⟩, ⟨rfl, rfl, rfl⟩, rfl, fun _ => rfl⟩

/-- Settles O30: the eight forms run one rule, and its sum is the number of R121. -/
theorem adcAddsWithCarry : Obligations.AdcAddsWithCarry :=
  ⟨accumulateSum_adcByte_performs.runsTwo rfl fun _ _ => rfl,
   accumulateSum_adcByte_performs.runsTwo rfl fun _ _ => rfl,
   accumulateSum_adcByte_performs.runsTwo rfl fun _ _ => rfl,
   accumulateSum_adcByte_performs.runsThree rfl fun _ _ => rfl,
   accumulateSum_adcByte_performs.runsThree rfl fun _ _ => rfl,
   accumulateSum_adcByte_performs.runsThree rfl fun _ _ => rfl,
   accumulateSum_adcByte_performs.runsTwo rfl fun _ _ => rfl,
   accumulateSum_adcByte_performs.runsTwo rfl fun _ _ => rfl⟩

theorem exec_sbcImm_eq_adcImm (m : Byte) (s : State) : exec (.sbcImm m) s = exec (.adcImm (m ^^^ 0xFF)) s := by
  rw [xor_ff_eq_not]
  exact congrArg (assignSum · s) (sbcByte_eq_adcByte_not s.a m s.flags.c)

/-- Settles O31: the eight forms run one rule: the difference of R122, and the sum with the complement. -/
theorem sbcSubtractsWithBorrow : Obligations.SbcSubtractsWithBorrow :=
  ⟨accumulateSum_sbcByte_performs.runsTwo rfl fun _ _ => rfl,
   accumulateSum_sbcByte_performs.runsTwo rfl fun _ _ => rfl,
   accumulateSum_sbcByte_performs.runsTwo rfl fun _ _ => rfl,
   accumulateSum_sbcByte_performs.runsThree rfl fun _ _ => rfl,
   accumulateSum_sbcByte_performs.runsThree rfl fun _ _ => rfl,
   accumulateSum_sbcByte_performs.runsThree rfl fun _ _ => rfl,
   accumulateSum_sbcByte_performs.runsTwo rfl fun _ _ => rfl,
   accumulateSum_sbcByte_performs.runsTwo rfl fun _ _ => rfl,
   exec_sbcImm_eq_adcImm⟩

/-- Settles O32: the sums in two's complement, of the immediate forms. -/
theorem overflowIsSignedRange : Obligations.OverflowIsSignedRange :=
  fun s m =>
    ⟨⟨_, accumulateSum_eq adcByte m s, rfl, adcByte_r_eq s.a m s.flags.c, adcByte_v_iff_signed s.a m s.flags.c⟩,
     ⟨_, accumulateSum_eq sbcByte m s, rfl, sbcByte_r_eq s.a m s.flags.c, sbcByte_v_iff_signed s.a m s.flags.c⟩⟩

/-- ADC and SBC hand on B and I as they find them, so giving them their old values sets D alone. -/
theorem withInertFlags_summed (s : State) (r : Sum) (d : Bool) :
    withInertFlags ((s.withA r.r).withFlags (s.flags.summed r)) s.flags.b d s.flags.i =
      ((s.withA r.r).withFlags (s.flags.summed r)).withFlags ((s.flags.summed r).setD d) := rfl

/-- Settles O33: D is inert in every rule but PHP's, and a sum leaves D to the value given (R123). -/
theorem decimalFlagDoesNotChangeArithmetic : Obligations.DecimalFlagDoesNotChangeArithmetic := by
  intro i s d arith
  have notBrk : i ≠ .brk := by rintro rfl; simp [Instr.mnemonic] at arith
  have notRti : i ≠ .rti := by rintro rfl; simp [Instr.mnemonic] at arith
  have notPhp : i.mnemonic ≠ .php := by rcases arith with h | h <;> simp [h]
  obtain ⟨t, completes⟩ := exec_completes i s notBrk notRti
  obtain ⟨r, rfl⟩ : ∃ r : Sum, t = (s.withA r.r).withFlags (s.flags.summed r) := by
    have writes := exec_writes completes
    rcases arith with h | h <;> rwa [h] at writes
  obtain ⟨_, inert⟩ := breakDecimalAndInterruptFlagsAreInert
  obtain ⟨other, _⟩ := inert i s s.flags.b d s.flags.i notPhp
  refine ⟨_, completes, (other _ completes).trans ?_⟩
  rcases arith with h | h <;> simp [h, withInertFlags_summed]

end Sys2Proof.Machine

/-! PROOFS. The statement of 43_compare.md: CMP, CPX and CPY (R130 to R133), each the one compare of a register with the
byte of its mode. -/

namespace Sys2Proof.Machine

/-- N of a compare is bit 7 of the difference mod 2^8, here as a number (R130). -/
theorem compare_n_iff (f : Flags) (r m : Byte) :
    (f.compare r m).n = true ↔ 128 ≤ (r.toNat + 256 - m.toNat) % 256 := by
  have difference : (r - m).toNat = (r.toNat + 256 - m.toNat) % 256 := by
    have bound := m.isLt
    rw [BitVec.toNat_sub]
    omega
  rw [Flags.compare_n, getLsbD_seven, difference]

/-- The rule of this family: a register of the state is compared with the operand. -/
def compareRegister (reg : State → Byte) (m : Byte) (s : State) : Result := compareWith (reg s) m s

theorem compareRegister_performs (reg : State → Byte) : Performs (compareRegister reg) (CompareEffect reg) :=
  fun m s => ⟨_, compareWith_eq (reg s) m s, decide_eq_true_iff, beq_iff_eq, compare_n_iff _ _ _, rfl,
    ⟨rfl, rfl, rfl, rfl⟩, ⟨rfl, ⟨rfl, rfl, rfl⟩, rfl⟩, fun _ => rfl⟩

/-- Settles O34: the forms of each mnemonic compare its register, and the compare replaces the flags alone. -/
theorem comparesSetCZNOnly : Obligations.ComparesSetCZNOnly :=
  ⟨(compareRegister_performs State.a).runsTwo rfl fun _ _ => rfl,
   (compareRegister_performs State.a).runsTwo rfl fun _ _ => rfl,
   (compareRegister_performs State.a).runsTwo rfl fun _ _ => rfl,
   (compareRegister_performs State.a).runsThree rfl fun _ _ => rfl,
   (compareRegister_performs State.a).runsThree rfl fun _ _ => rfl,
   (compareRegister_performs State.a).runsThree rfl fun _ _ => rfl,
   (compareRegister_performs State.a).runsTwo rfl fun _ _ => rfl,
   (compareRegister_performs State.a).runsTwo rfl fun _ _ => rfl,
   (compareRegister_performs State.x).runsTwo rfl fun _ _ => rfl,
   (compareRegister_performs State.x).runsTwo rfl fun _ _ => rfl,
   (compareRegister_performs State.x).runsThree rfl fun _ _ => rfl,
   (compareRegister_performs State.y).runsTwo rfl fun _ _ => rfl,
   (compareRegister_performs State.y).runsTwo rfl fun _ _ => rfl,
   (compareRegister_performs State.y).runsThree rfl fun _ _ => rfl⟩

end Sys2Proof.Machine

/-! PROOFS. The statements of 44_inc_dec.md: INC and DEC, each the one adjustment of the byte at EA (R140, R141), and INX,
INY, DEX and DEY, each an assignment to X or Y (R142 to R145). -/

namespace Sys2Proof.Machine

/-! ### INC and DEC: the stored byte is the sum with `d`, of which −1 is the number 255 -/

theorem adjustMem_performs (d : Byte) : Performs (adjustMem d) fun o s t => AdjustsAt d.toNat (s.ea o) s t :=
  fun o s => ⟨_, adjustMem_eq d o s, s.load o + d, BitVec.toNat_add _ _, showsZN_of_flags_eq rfl,
    ⟨rfl, rfl, rfl, rfl, rfl, rfl⟩, ⟨rfl, ⟨rfl, rfl, rfl⟩, rfl⟩, storesByte_write s _ _⟩

/-- Settles O35: the four forms of each mnemonic run one rule, the adjustment by 1 or by −1. -/
theorem incAndDecAdjustMemory : Obligations.IncAndDecAdjustMemory :=
  ⟨(adjustMem_performs 1).runsTwo rfl fun _ _ => rfl,
   (adjustMem_performs 1).runsTwo rfl fun _ _ => rfl,
   (adjustMem_performs 1).runsThree rfl fun _ _ => rfl,
   (adjustMem_performs 1).runsThree rfl fun _ _ => rfl,
   (adjustMem_performs (-1)).runsTwo rfl fun _ _ => rfl,
   (adjustMem_performs (-1)).runsTwo rfl fun _ _ => rfl,
   (adjustMem_performs (-1)).runsThree rfl fun _ _ => rfl,
   (adjustMem_performs (-1)).runsThree rfl fun _ _ => rfl⟩

/-! ### INX, INY, DEX and DEY: an assignment to the register, of its value one up or one down -/

theorem givesX_assignX (r : Byte) (s : State) : GivesX r s (s.assignX r) :=
  ⟨rfl, showsZN_of_flags_eq rfl, ⟨rfl, rfl, rfl, rfl, rfl, rfl⟩, rfl, rfl, rfl, rfl, fun _ => rfl⟩

theorem givesY_assignY (r : Byte) (s : State) : GivesY r s (s.assignY r) :=
  ⟨rfl, showsZN_of_flags_eq rfl, ⟨rfl, rfl, rfl, rfl, rfl, rfl⟩, rfl, rfl, rfl, rfl, fun _ => rfl⟩

/-- One down mod 2^8 is 255 up. -/
theorem sub_one_toNat (v : Byte) : (v - 1).toNat = (v.toNat + 255) % 256 := by
  rw [BitVec.toNat_sub, Nat.add_comm]
  rfl

/-- Settles O36: each instruction assigns its register, and the assigned byte is the number one up or one down. -/
theorem indexRegistersCountModTwoToTheEight : Obligations.IndexRegistersCountModTwoToTheEight :=
  ⟨runsOne_of_rule (rule := execInx) (fun s => ⟨_, rfl, givesX_assignX _ s, BitVec.toNat_add s.x 1⟩) rfl fun _ => rfl,
   runsOne_of_rule (rule := execIny) (fun s => ⟨_, rfl, givesY_assignY _ s, BitVec.toNat_add s.y 1⟩) rfl fun _ => rfl,
   runsOne_of_rule (rule := execDex) (fun s => ⟨_, rfl, givesX_assignX _ s, sub_one_toNat s.x⟩) rfl fun _ => rfl,
   runsOne_of_rule (rule := execDey) (fun s => ⟨_, rfl, givesY_assignY _ s, sub_one_toNat s.y⟩) rfl fun _ => rfl⟩

end Sys2Proof.Machine

/-! PROOFS. The statement of 45_flags.md: CLC, SEC, CLI, SEI, CLD, SED and CLV (R150 to R156), each the one replacement of
the flags by themselves with one flag set or cleared. -/

namespace Sys2Proof.Machine

theorem givesFlags_withFlags (f : Flags → Flags) (s : State) : GivesFlags f s (s.withFlags (f s.flags)) :=
  ⟨rfl, ⟨rfl, ⟨rfl, rfl, rfl⟩, rfl⟩, fun _ => rfl⟩

/-- A one-byte form whose meaning replaces the flags by `f` of them does that from every state, and nothing else. -/
theorem runsOne_of_putFlags {f : Flags → Flags} {op : Byte} {i : Instr} (entry : dispatch op = .one i)
    (meaning : ∀ s, exec i s = putFlags (f s.flags) s) : RunsOne op i (GivesFlags f) :=
  runsOne_of_rule (fun s => ⟨_, putFlags_eq (f s.flags) s, givesFlags_withFlags f s⟩) entry meaning

/-- Settles O37: each instruction's rule puts back the old flags with its one flag set or cleared. -/
theorem flagInstructionsTouchOneFlag : Obligations.FlagInstructionsTouchOneFlag :=
  ⟨runsOne_of_putFlags (f := (·.setC false)) rfl fun _ => rfl,
   runsOne_of_putFlags (f := (·.setC true)) rfl fun _ => rfl,
   runsOne_of_putFlags (f := (·.setI false)) rfl fun _ => rfl,
   runsOne_of_putFlags (f := (·.setI true)) rfl fun _ => rfl,
   runsOne_of_putFlags (f := (·.setD false)) rfl fun _ => rfl,
   runsOne_of_putFlags (f := (·.setD true)) rfl fun _ => rfl,
   runsOne_of_putFlags (f := (·.setV false)) rfl fun _ => rfl⟩

end Sys2Proof.Machine

/-! PROOFS. The statement of 46_branch.md: the eight branches (R161 to R168), each the one branch of R160 on
a flag that is set or clear. -/

namespace Sys2Proof.Machine

/-- The rule of this family: a branch on a test of the flags. -/
def branchOn (test : Flags → Bool) (off : Byte) (s : State) : Result := branch (test s.flags) off s

theorem branchOn_performs {test : Flags → Bool} {cond : Flags → Prop} (decides : ∀ f, test f = true ↔ cond f) :
    Performs (branchOn test) (BranchEffect cond) := by
  intro off s
  refine ⟨_, branch_eq (test s.flags) off s, fun holds => ?_, fun fails => ?_, rfl, rfl, ⟨rfl, rfl, rfl⟩, fun _ => rfl⟩
  · obtain ⟨targets, _⟩ := branchTargetIsPcPlusSignedOffset
    obtain ⟨target, _⟩ := targets s off
    rw [State.withPc_pc, if_pos ((decides s.flags).mpr holds), target]
  · exact if_neg fun tested => fails ((decides s.flags).mp tested)

theorem branchOn_set_performs (flag : Flags → Bool) : Performs (branchOn flag) (BranchEffect fun f => flag f = true) :=
  branchOn_performs fun _ => .rfl

theorem branchOn_clear_performs (flag : Flags → Bool) :
    Performs (branchOn fun f => !flag f) (BranchEffect fun f => flag f = false) :=
  branchOn_performs fun f => (Bool.not_eq_true' (flag f)).to_iff

/-- Settles O38: each instruction is the branch of R160 on its flag, whose target is the signed sum of R75. -/
theorem branchesTestOneFlag : Obligations.BranchesTestOneFlag :=
  ⟨(branchOn_clear_performs Flags.n).runsTwo rfl fun _ _ => rfl,
   (branchOn_set_performs Flags.n).runsTwo rfl fun _ _ => rfl,
   (branchOn_clear_performs Flags.v).runsTwo rfl fun _ _ => rfl,
   (branchOn_set_performs Flags.v).runsTwo rfl fun _ _ => rfl,
   (branchOn_clear_performs Flags.c).runsTwo rfl fun _ _ => rfl,
   (branchOn_set_performs Flags.c).runsTwo rfl fun _ _ => rfl,
   (branchOn_clear_performs Flags.z).runsTwo rfl fun _ _ => rfl,
   (branchOn_set_performs Flags.z).runsTwo rfl fun _ _ => rfl⟩

end Sys2Proof.Machine

/-! PROOFS. The statements of 47_load_store_transfer.md: the loads, each an assignment of the operand byte to its register
(R180 to R182), the stores, each the one write of a register at EA (R183 to R185), and the transfers (R186 to R191). -/

namespace Sys2Proof.Machine

/-! ### Loads -/

theorem loadA_performs : Performs loadA GivesA := fun m s => ⟨_, loadA_eq m s, givesA_assignA m s⟩

theorem loadX_performs : Performs loadX GivesX := fun m s => ⟨_, loadX_eq m s, givesX_assignX m s⟩

theorem loadY_performs : Performs loadY GivesY := fun m s => ⟨_, loadY_eq m s, givesY_assignY m s⟩

/-- Settles O39: the forms of each mnemonic assign the byte of their mode to its register. -/
theorem loadsSetTheRegisterAndZN : Obligations.LoadsSetTheRegisterAndZN :=
  ⟨loadA_performs.runsTwo rfl fun _ _ => rfl,
   loadA_performs.runsTwo rfl fun _ _ => rfl,
   loadA_performs.runsTwo rfl fun _ _ => rfl,
   loadA_performs.runsThree rfl fun _ _ => rfl,
   loadA_performs.runsThree rfl fun _ _ => rfl,
   loadA_performs.runsThree rfl fun _ _ => rfl,
   loadA_performs.runsTwo rfl fun _ _ => rfl,
   loadA_performs.runsTwo rfl fun _ _ => rfl,
   loadX_performs.runsTwo rfl fun _ _ => rfl,
   loadX_performs.runsTwo rfl fun _ _ => rfl,
   loadX_performs.runsTwo rfl fun _ _ => rfl,
   loadX_performs.runsThree rfl fun _ _ => rfl,
   loadX_performs.runsThree rfl fun _ _ => rfl,
   loadY_performs.runsTwo rfl fun _ _ => rfl,
   loadY_performs.runsTwo rfl fun _ _ => rfl,
   loadY_performs.runsTwo rfl fun _ _ => rfl,
   loadY_performs.runsThree rfl fun _ _ => rfl,
   loadY_performs.runsThree rfl fun _ _ => rfl⟩

/-! ### Stores -/

/-- The rule of the stores: a register of the state is written at EA. -/
def storeRegister (reg : State → Byte) (o : MemOperand) (s : State) : Result := storeByte (reg s) o s

theorem storeRegister_performs (reg : State → Byte) :
    Performs (storeRegister reg) fun o s t => StoreEffect reg (s.ea o) s t :=
  fun o s => ⟨_, storeByte_eq (reg s) o s, storesByte_write s _ _, ⟨rfl, ⟨rfl, rfl, rfl⟩, rfl⟩, rfl⟩

/-- Settles O40: the forms of each mnemonic write its register at the address of their mode, and nothing else. -/
theorem storesWriteOneByteAtEa : Obligations.StoresWriteOneByteAtEa :=
  ⟨(storeRegister_performs State.a).runsTwo rfl fun _ _ => rfl,
   (storeRegister_performs State.a).runsTwo rfl fun _ _ => rfl,
   (storeRegister_performs State.a).runsThree rfl fun _ _ => rfl,
   (storeRegister_performs State.a).runsThree rfl fun _ _ => rfl,
   (storeRegister_performs State.a).runsThree rfl fun _ _ => rfl,
   (storeRegister_performs State.a).runsTwo rfl fun _ _ => rfl,
   (storeRegister_performs State.a).runsTwo rfl fun _ _ => rfl,
   (storeRegister_performs State.x).runsTwo rfl fun _ _ => rfl,
   (storeRegister_performs State.x).runsTwo rfl fun _ _ => rfl,
   (storeRegister_performs State.x).runsThree rfl fun _ _ => rfl,
   (storeRegister_performs State.y).runsTwo rfl fun _ _ => rfl,
   (storeRegister_performs State.y).runsTwo rfl fun _ _ => rfl,
   (storeRegister_performs State.y).runsThree rfl fun _ _ => rfl⟩

/-! ### Transfers -/

/-- Settles O41: each transfer assigns its source register, but for TXS, which replaces SP alone. -/
theorem transfersCopyTheRegister : Obligations.TransfersCopyTheRegister :=
  ⟨runsOne_of_rule (rule := execTax) (fun s => ⟨_, rfl, givesX_assignX s.a s⟩) rfl fun _ => rfl,
   runsOne_of_rule (rule := execTay) (fun s => ⟨_, rfl, givesY_assignY s.a s⟩) rfl fun _ => rfl,
   runsOne_of_rule (rule := execTxa) (fun s => ⟨_, rfl, givesA_assignA s.x s⟩) rfl fun _ => rfl,
   runsOne_of_rule (rule := execTya) (fun s => ⟨_, rfl, givesA_assignA s.y s⟩) rfl fun _ => rfl,
   runsOne_of_rule (rule := execTsx) (fun s => ⟨_, rfl, givesX_assignX s.sp s⟩) rfl fun _ => rfl,
   runsOne_of_rule (rule := execTxs) (fun _ => ⟨_, rfl, rfl, ⟨rfl, rfl, rfl, rfl, rfl⟩, fun _ => rfl⟩) rfl fun _ => rfl⟩

end Sys2Proof.Machine

/-! PROOFS. The statements of 48_stack.md: PHA, PLA, PHP and PLP (R200 to R203), on the push and the pull of R48 and R49. -/

namespace Sys2Proof.Machine

/-! ### Push and pull, as the statements write them -/

theorem pushes_push (v : Byte) (s : State) : Pushes v s (s.push v) := by
  obtain ⟨pushes, _⟩ := pushAndPullUsePageOne s v
  exact pushes

theorem pullByte_eq_pulledByte (s : State) : s.pullByte = pulledByte s := by
  rw [State.pullByte, stackAddr_succ, pulledByte]

/-- A pull after a push returns the byte pushed (R48, R49). -/
@[simp] theorem State.pullByte_push (s : State) (v : Byte) : (s.push v).pullByte = v := by
  rw [State.pullByte, State.push_sp, BitVec.sub_add_cancel, State.read_push, if_pos rfl]

/-- Settles O42: the pushes are of A and of the status byte, whose bits 5 and 4 are U and B; the pulls return the byte at
0x0100 + SP + 1, which PLA assigns to A and PLP to the seven flags. -/
theorem stackInstructionsPushAndPull : Obligations.StackInstructionsPushAndPull := by
  refine ⟨runsOne_of_rule (rule := execPha) (fun s => ⟨_, rfl, pushes_push s.a s⟩) rfl fun _ => rfl,
    runsOne_of_rule (rule := execPhp) (fun s => ⟨_, rfl, pushes_push s.flags.statusByte s, ?_, ?_⟩) rfl fun _ => rfl,
    runsOne_of_rule (rule := execPla) (fun s => ?_) rfl fun _ => rfl,
    runsOne_of_rule (rule := execPlp) (fun s => ?_) rfl fun _ => rfl⟩
  · simp [Flags.bits]
  · simp [Flags.bits]
  · rw [← pullByte_eq_pulledByte]
    exact ⟨_, rfl, rfl, showsZN_of_flags_eq rfl, ⟨rfl, rfl, rfl, rfl, rfl, rfl⟩, BitVec.toNat_add s.sp 1, rfl, rfl, rfl,
      fun _ => rfl⟩
  · rw [← pullByte_eq_pulledByte]
    exact ⟨_, rfl, rfl, rfl, rfl, rfl, rfl, rfl, rfl, rfl, BitVec.toNat_add s.sp 1, rfl, rfl, rfl, rfl, fun _ => rfl⟩

/-- Settles O44: the byte pulled is the byte pushed, whatever A and the flags are between, and the flags set from a status
byte are those it was made of. -/
theorem stackRoundTripsRestore : Obligations.StackRoundTripsRestore := by
  intro s a f
  have pulledA : ((s.push s.a).withA a).pullByte = s.a := State.pullByte_push s s.a
  have pulledStatus : ((s.push s.flags.statusByte).withFlags f).pullByte = s.flags.statusByte := State.pullByte_push s _
  have sp : s.sp - 1 + 1 = s.sp := BitVec.sub_add_cancel s.sp 1
  refine ⟨⟨_, _, rfl, rfl, pulledA, sp, ?_⟩, _, _, rfl, rfl, ?_, sp⟩
  · exact showsZN_of_flags_eq (f := s.flags) (congrArg s.flags.setZN pulledA)
  · exact (congrArg f.setStatusByte pulledStatus).trans (Flags.setStatusByte_statusByte s.flags f)

end Sys2Proof.Machine

/-! PROOFS. The statements of 49_control.md: JMP, JSR, RTS and NOP (R210 to R212, R215), and BRK and RTI, which stop (R213,
R214). -/

namespace Sys2Proof.Machine

/-! ### Jumps -/

theorem jumpTo_performs : Performs jumpTo JumpEffect :=
  fun target s => ⟨_, jumpTo_eq target s, rfl, rfl, rfl, ⟨rfl, rfl, rfl⟩, fun _ => rfl⟩

/-- Settles O45: both forms jump, to the operand and to the address the pointer gives. -/
theorem jumpsSetPc : Obligations.JumpsSetPc :=
  ⟨jumpTo_performs.runsThree (operand := fun w _ => w) rfl fun _ _ => rfl,
   jumpTo_performs.runsThree (operand := fun w s => s.eaIndirectWith Config.jmpIndirectPageWrap w) rfl fun _ _ => rfl⟩

/-! ### Two bytes on the stack (R211, R212) -/

theorem stackAddr_pred (sp : Byte) : stackAddr (sp - 1) = BitVec.ofNat 16 (256 + (sp.toNat + 255) % 256) := by
  rw [stackAddr_eq, sub_one_toNat]

theorem stackAddr_ne_pred (sp : Byte) : stackAddr sp ≠ stackAddr (sp - 1) :=
  fun same => absurd (stackAddr_inj same) (by bv_omega)

/-- Reading after two pushes: the second byte is one below the first, in page 1. -/
theorem State.read_push_push (s : State) (hi lo : Byte) (b : Addr) :
    ((s.push hi).push lo).read b =
      if b = stackAddr (s.sp - 1) then lo else if b = stackAddr s.sp then hi else s.read b := by
  rw [State.read_push, State.read_push, State.push_sp]

/-- The second pull after two pushes returns the byte pushed first. -/
theorem State.pulled_pullByte_push_push (s : State) (hi lo : Byte) :
    ((s.push hi).push lo).pulled.pullByte = hi := by
  rw [State.pullByte, State.pulled_read, State.pulled_sp, State.push_sp, State.push_sp, BitVec.sub_add_cancel,
    BitVec.sub_add_cancel, State.read_push_push, if_neg (stackAddr_ne_pred s.sp), if_pos rfl]

theorem pulled_pullByte_eq (s : State) :
    s.pulled.pullByte = s.read (BitVec.ofNat 16 (256 + (s.sp.toNat + 2) % 256)) := by
  rw [State.pullByte, State.pulled_read, State.pulled_sp, stackAddr_succ, BitVec.toNat_add, Nat.mod_add_mod]
  rfl

@[simp] theorem State.withPc_pullByte (s : State) (pc : Addr) : (s.withPc pc).pullByte = s.pullByte := rfl

@[simp] theorem State.withPc_pulled_pullByte (s : State) (pc : Addr) :
    (s.withPc pc).pulled.pullByte = s.pulled.pullByte := rfl

/-- The state JSR leaves: the return address − 1 is pushed, high byte first, and PC is the target (R211). -/
def State.called (s : State) (target : Addr) : State :=
  ((s.push (highByte (s.pc - 1))).push (lowByte (s.pc - 1))).withPc target

theorem exec_jsr_eq (target : Addr) (s : State) : exec (.jsr target) s = .next (s.called target) := rfl

theorem State.called_read (s : State) (target b : Addr) :
    (s.called target).read b =
      if b = stackAddr (s.sp - 1) then lowByte (s.pc - 1)
      else if b = stackAddr s.sp then highByte (s.pc - 1) else s.read b := s.read_push_push _ _ b

/-- The state RTS leaves: two bytes are pulled, low byte first, and PC is one past the address they form (R212). -/
def State.returned (s : State) : State := s.pulled.pulled.withPc (joinBytes s.pullByte s.pulled.pullByte + 1)

@[simp] theorem State.returned_read (s : State) (b : Addr) : s.returned.read b = s.read b := rfl

theorem exec_rts_eq (s : State) : exec .rts s = .next s.returned := rfl

/-- RTS undoes JSR's push, wherever the subroutine's PC is: it resumes at the PC that JSR was given. -/
theorem State.returned_called (s : State) (target pc : Addr) :
    SameRegisters s ((s.called target).withPc pc).returned := by
  have low : ((s.called target).withPc pc).pullByte = lowByte (s.pc - 1) := by
    rw [State.called, State.withPc_pullByte, State.withPc_pullByte, State.pullByte_push]
  have high : ((s.called target).withPc pc).pulled.pullByte = highByte (s.pc - 1) := by
    rw [State.called, State.withPc_pulled_pullByte, State.withPc_pulled_pullByte, State.pulled_pullByte_push_push]
  rw [State.returned, low, high, joinBytes_low_high, BitVec.sub_add_cancel]
  simp [SameRegisters, State.called]

/-- Settles O46: the two bytes of PC − 1 are pushed one below the other. -/
theorem jsrPushesTheReturnAddress : Obligations.JsrPushesTheReturnAddress := by
  refine ⟨fun lo hi rest => decode_three lo hi rest rfl, fun w s => ⟨_, exec_jsr_eq w s, ?_⟩⟩
  have ret : (s.pc - 1).toNat = (s.pc.toNat + 65535) % 65536 := by
    rw [BitVec.toNat_sub, Nat.add_comm]
    rfl
  have sp : (s.sp - 1 - 1).toNat = (s.sp.toNat + 254) % 256 := by
    rw [sub_one_toNat, sub_one_toNat]
    omega
  dsimp only
  rw [← stackAddr_eq, ← stackAddr_pred, ← ret, ← highByte_toNat, ← lowByte_toNat]
  refine ⟨?_, ?_, fun b notHigh notLow => ?_, sp, rfl, rfl, rfl, rfl, rfl⟩
  · rw [State.called_read, if_neg (stackAddr_ne_pred s.sp), if_pos rfl]
  · rw [State.called_read, if_pos rfl]
  · rw [State.called_read, if_neg notLow, if_neg notHigh]

/-- Settles O47: the two bytes pulled form the address that PC goes past. -/
theorem rtsPullsTheReturnAddress : Obligations.RtsPullsTheReturnAddress := by
  refine ⟨fun rest => decode_one rest rfl, fun s => ⟨_, exec_rts_eq s, ?_, ?_, rfl, rfl, rfl, rfl, fun _ => rfl⟩⟩
  · rw [State.returned, State.withPc_pc, BitVec.toNat_add, joinBytes_toNat, pullByte_eq_pulledByte, pulled_pullByte_eq]
    rfl
  · exact (BitVec.toNat_add (s.sp + 1) 1).trans (by rw [BitVec.toNat_add, Nat.mod_add_mod]; rfl)

/-! ### The step of an opcode byte (R81) -/

section
variable {s : State} {op : Byte}

theorem fetch_one {i : Instr} (opcode : s.read s.pc = op) (entry : dispatch op = .one i) : s.fetch = some i := by
  rw [State.fetch, State.fetchEntry, opcode, entry, Entry.build]

theorem fetch_three {mk : Addr → Instr} (opcode : s.read s.pc = op) (entry : dispatch op = .three mk) :
    s.fetch = some (mk (joinBytes (s.read (s.pc + 1)) (s.read (s.pc + 2)))) := by
  rw [State.fetch, State.fetchEntry, opcode, entry, Entry.build]

end

/-- Settles O48: RTS pulls the two bytes JSR pushed, PC + 3 − 1 at the JSR, which it goes one past. -/
theorem jsrThenRtsResumesAfterTheJsr : Obligations.JsrThenRtsResumesAfterTheJsr := by
  intro s opcode
  obtain ⟨target, form⟩ : ∃ target, target = joinBytes (s.read (s.pc + 1)) (s.read (s.pc + 2)) := ⟨_, rfl⟩
  have called : step s = .next ((s.withPc (s.pc + 3)).called target) := by
    rw [step_fetched (fetch_three opcode rfl), ← form]
    rfl
  refine ⟨_, called, form, fun rts => ?_⟩
  have returned : step ((s.withPc (s.pc + 3)).called target) =
      .next (((s.withPc (s.pc + 3)).called target).withPc (target + 1)).returned := by
    rw [step_fetched (fetch_one rts rfl)]
    rfl
  obtain ⟨a, x, y, sp, pc, flags⟩ := (s.withPc (s.pc + 3)).returned_called target (target + 1)
  refine ⟨_, returned, pc, sp, a, x, y, flags, fun b notHigh notLow => ?_⟩
  rw [State.returned_read, State.withPc_read, State.called_read, State.withPc_sp, if_neg notLow, if_neg notHigh,
    State.withPc_read]

/-- Settles O49: NOP's rule leaves the state it is given, which the step has advanced past the one byte. -/
theorem nopOnlyAdvancesPc : Obligations.NopOnlyAdvancesPc := by
  refine ⟨fun rest => decode_one rest rfl, fun _ => rfl, fun s opcode => ?_⟩
  rw [step_fetched (fetch_one opcode rfl), enter_eq]
  rfl

/-! ### BRK and RTI (R213, R214, R231) -/

theorem hostStep_fault {s : State} {e : Fault} (h : step s = .fault e) : hostStep s = (.error e, s) := by
  simp only [hostStep, h]

theorem step_brk {s : State} (opcode : s.read s.pc = 0x00) :
    step s = .fault (.unimplementedControlFlow 0x00 s.pc) := step_fetched (fetch_one opcode rfl)

theorem step_rti {s : State} (opcode : s.read s.pc = 0x40) :
    step s = .fault (.unimplementedControlFlow 0x40 s.pc) := step_fetched (fetch_one opcode rfl)

/-- A one-byte instruction whose rule accesses nothing leaves the step its opcode read alone (R55). -/
theorem stepAccesses_of_ruleAccesses_nil {s : State} {op : Byte} {i : Instr} (opcode : s.read s.pc = op)
    (entry : dispatch op = .one i) (nothing : ∀ t : State, t.ruleAccesses i = []) : s.stepAccesses = [.read s.pc] := by
  rw [stepAccesses_fetched (fetch_one opcode entry), nothing, State.fetchAccesses, State.fetchEntry, opcode, entry]
  rfl

/-- Settles O8: both rules stop whatever the state is, and the step runs them before it changes or reads anything more. -/
theorem brkAndRtiReturnUnimplementedControlFlow : Obligations.BrkAndRtiReturnUnimplementedControlFlow :=
  ⟨fun rest => decode_one rest rfl, fun rest => decode_one rest rfl, fun _ => ⟨rfl, rfl,
    fun opcode => ⟨hostStep_fault (step_brk opcode), stepAccesses_of_ruleAccesses_nil opcode rfl fun _ => rfl⟩,
    fun opcode => ⟨hostStep_fault (step_rti opcode), stepAccesses_of_ruleAccesses_nil opcode rfl fun _ => rfl⟩⟩⟩

end Sys2Proof.Machine

/-! PROOFS. The statements of 60_exceptions.md: the errors of a step (R230 to R235), and the host's writes between steps
(R240). -/

namespace Sys2Proof.Machine

/-! ### When a step stops (R233) -/

/-- At a documented opcode the step fetches an instruction with that opcode. -/
theorem fetch_documented {s : State} (documented : s.read s.pc ∉ undefinedOpcodes) :
    ∃ i, s.fetch = some i ∧ i.opcode = s.read s.pc := by
  obtain ⟨_, _, total⟩ := decodingIsTotal
  obtain ⟨_, decodes⟩ := total (s.read s.pc) (s.read (s.pc + 1)) (s.read (s.pc + 2)) []
  obtain ⟨i, rest, decoded⟩ := decodes documented
  refine ⟨i, ?_, ?_⟩
  · rw [State.fetch, State.fetchEntry, build_eq_decode, decoded]
    rfl
  · exact List.head_eq_of_cons_eq (encodeOfDecodeIsTheBytes _ i rest decoded)

/-- What a step can do: stop at an undefined opcode, stop at a BRK or an RTI, or complete (R230, R231, R233). -/
theorem step_cases (s : State) :
    (s.read s.pc ∈ undefinedOpcodes ∧ step s = .fault (.invalidOpcode (s.read s.pc) s.pc)) ∨
    ((s.read s.pc = 0x00 ∨ s.read s.pc = 0x40) ∧ step s = .fault (.unimplementedControlFlow (s.read s.pc) s.pc)) ∨
    (s.read s.pc ∉ undefinedOpcodes ∧ s.read s.pc ≠ 0x00 ∧ s.read s.pc ≠ 0x40) ∧ ∃ t, step s = .next t := by
  by_cases undefined : s.read s.pc ∈ undefinedOpcodes
  · obtain ⟨stops, _⟩ := undefinedOpcodeReturnsInvalidOpcode s undefined
    exact .inl ⟨undefined, stops⟩
  by_cases brk : s.read s.pc = 0x00
  · exact .inr (.inl ⟨.inl brk, brk ▸ step_brk brk⟩)
  by_cases rti : s.read s.pc = 0x40
  · exact .inr (.inl ⟨.inr rti, rti ▸ step_rti rti⟩)
  obtain ⟨i, fetched, opcode⟩ := fetch_documented undefined
  refine .inr (.inr ⟨⟨undefined, brk, rti⟩, ?_⟩)
  rw [step_fetched fetched]
  exact exec_completes i _ (fun same => brk (by rw [← opcode, same]; rfl)) fun same => rti (by rw [← opcode, same]; rfl)

/-- Settles O9: the three cases of a step exclude each other by the opcode, and in none of them is it refused. -/
theorem stepCompletesUnlessTheOpcodeIsAnError : Obligations.StepCompletesUnlessTheOpcodeIsAnError := by
  intro s
  obtain ⟨undefined, stops⟩ | ⟨unimplemented, stops⟩ | ⟨documented, t, completes⟩ := step_cases s
  · simp [Completes, stops, undefined]
  · obtain opcode | opcode := unimplemented <;> simp [Completes, stops, opcode]
  · simpa [Completes, completes] using documented

/-- Settles O10: an error is returned beside the state of the call, so the next call is the same call. -/
theorem errorLeavesTheStateAndRepeats : Obligations.ErrorLeavesTheStateAndRepeats := by
  intro s e t h
  rcases outcome : step s with u | e' | r
  case next =>
    rw [hostStep_next outcome] at h
    cases h
  case fault =>
    have returned := hostStep_fault outcome
    rw [returned] at h
    cases h
    exact ⟨rfl, returned⟩
  case refused =>
    obtain ⟨_, _, notRefused⟩ := stepCompletesUnlessTheOpcodeIsAnError s
    exact absurd outcome (notRefused r)

/-! ### Host writes (R240) -/

theorem hostReadRegister_hostWrite (s : State) (r : ByteRegister) (v : Byte) (r' : ByteRegister) :
    (s.hostWrite (.register r v)).hostReadRegister r' = if r' = r then v else s.hostReadRegister r' := by
  cases r <;> cases r' <;> rfl

/-- U is written by nothing and reads 1 (R27). -/
theorem hostReadFlag_hostWrite (s : State) (f : FlagName) (b : Bool) (f' : FlagName) :
    (s.hostWrite (.flag f b)).hostReadFlag f' =
      if f' = .u then true else if f' = f then b else s.hostReadFlag f' := by
  cases f <;> cases f' <;> rfl

/-- Settles O55: each host write is one write of its register, PC, flag or byte. -/
theorem hostWritesSetExactly : Obligations.HostWritesSetExactly :=
  fun s => ⟨hostReadRegister_hostWrite s,
    fun r _ => by cases r <;> exact ⟨rfl, rfl, fun _ => rfl⟩,
    fun _ => ⟨rfl, rfl, ⟨rfl, rfl, rfl⟩, rfl, fun _ => rfl⟩,
    hostReadFlag_hostWrite s,
    fun _ _ => ⟨⟨rfl, ⟨rfl, rfl, rfl⟩, rfl⟩, fun _ => rfl⟩,
    fun a v => ⟨storesByte_write s a v, sameRegisters_iff.mpr rfl⟩⟩

end Sys2Proof.Machine

/-! PROOFS. The statements of 70_reset_and_hazards.md: construction (R260 to R263), and the states reached from it (R240,
R260, R270). -/

namespace Sys2Proof.Machine

/-- Settles O11: memory reads as the image, and PC is the word its two bytes at the reset vector form. -/
theorem constructionGivesTheStatedState : Obligations.ConstructionGivesTheStatedState := by
  refine fun image r => ⟨Memory.read_ofImage image, rfl, ?_, rfl, rfl, rfl, rfl, rfl, rfl, rfl, rfl, rfl, rfl, rfl⟩
  rw [Nat.add_comm, Nat.mul_comm]
  exact joinBytes_toNat _ _

/-- Settles O12: the blank buffer reads 0x00 throughout, at the reset vector and at the address it gives. -/
theorem resetIsABlankBuffer : Obligations.ResetIsABlankBuffer :=
  ⟨Memory.read_ofImage [], rfl, rfl, step_brk rfl⟩

/-- A host write keeps the canonical form: only a write to a byte touches memory, and that is the core's own. -/
theorem inv_hostWrite {s : State} (inv : s.Inv) (w : HostWrite) : (s.hostWrite w).Inv := by
  cases w
  case register r v => cases r <;> exact inv
  case pc => exact inv
  case flag => exact inv
  case byte a v => exact Memory.wf_write a v inv

/-- Settles O15: by induction on how the state is reached. -/
theorem everyReachableStateMeetsTheInvariant : Obligations.EveryReachableStateMeetsTheInvariant := by
  intro s reached
  induction reached with
  | construct image r =>
    obtain ⟨constructed, _⟩ := constructionHoldsTheInvariant
    exact constructed image r
  | step _ completed inv => exact everyStepKeepsTheInvariant _ _ inv completed
  | host _ w inv => exact inv_hostWrite inv w

end Sys2Proof.Machine
